-- ==== Sys2Proof/Word.lean ====
section
/-! DEFINITION. The words the BZ440's cells, sets, counters and tick count are made of. -/

namespace Sys2Proof

/-- One byte of a cell (R157). -/
abbrev Byte := BitVec 8

/-- A zone set as the wire carries it: bit n stands for zone n (00_scope, Formats). -/
abbrev ZoneSet := BitVec 16

/-- A group mask as the wire carries it: bit n stands for group n (00_scope, Formats). -/
abbrev GroupMask := BitVec 16

/-- A 16-bit counter; every counter of the part saturates at 65535 (00_scope). -/
abbrev Count := BitVec 16

/-- The free-running millisecond count of the time base, wrapping at 2^32 (R3). -/
abbrev Tick := BitVec 32

/-- One 16-bit signed linear audio sample (AUDIO layout of Formats). -/
abbrev Sample := BitVec 16

/-- A zone number 0..15. -/
abbrev Zone := Fin 16

/-- A session slot number 0..3 (R91). -/
abbrev SlotId := Fin 4

/-- A clock circuit number 0..3 (R110). -/
abbrev CircuitId := Fin 4

/-- A contact input number 0..7 (R152). -/
abbrev InputId := Fin 8

end Sys2Proof
end

