-- ==== Sys2Proof/Syntax.lean ====
section
/-! DEFINITION. The commands of the BZ440: one constructor of `Instr` for each row of spec/opcode_table.json, with
the cells and operands the rows carry. -/

namespace Sys2Proof

/-- A 40-byte cell of the signal line: bytes 0..37, and the check of bytes 38 and 39 (R157, R159). -/
structure Cell where
  body : Vector Byte 38
  check : BitVec 16
deriving DecidableEq, Repr

/-- The fields of a BEACON cell (kind 1 of Formats). In this and the structures below, `spare` is the bits and `tail` the
bytes of the cell that the station does not read; a forwarded cell keeps them (R157). -/
structure BeaconCell where
  stepFlag : Bool
  day : BitVec 16
  weekday : Byte
  ms : BitVec 32
  spare : BitVec 3 := 0
  tail : Vector Byte 30 := Vector.replicate 30 0
deriving DecidableEq, Repr

/-- The fields of an AUDIO cell (kind 2 of Formats): channel code, sequence number, 16 samples. -/
structure AudioCell where
  channel : BitVec 4
  sequence : Byte
  samples : Vector Sample 16
  tail : Vector Byte 4 := Vector.replicate 4 0
deriving DecidableEq, Repr

/-- The fields of a SESSION cell beside its kind code (kind 3 of Formats). -/
structure SessionCell where
  channel : Byte
  groups : GroupMask
  priority : BitVec 3
  chime : Bool
  gain : Byte
  zones : ZoneSet
  spare : BitVec 4 := 0
  tail : Vector Byte 30 := Vector.replicate 30 0
deriving DecidableEq, Repr

/-- The fields of a BELL cell beside its cancel and immediate flags (kind 4 of Formats). -/
structure BellCell where
  id : Byte
  groups : GroupMask
  pattern : Byte
  dueDay : BitVec 16
  dueMs : BitVec 32
  zones : ZoneSet
  spare : BitVec 2 := 0
  tail : Vector Byte 25 := Vector.replicate 25 0
deriving DecidableEq, Repr

/-- The fields of a DRILL cell beside its command code (kind 5 of Formats). -/
structure DrillCell where
  zonesGiven : Bool
  groups : GroupMask
  number : BitVec 16
  zones : ZoneSet
  spare : BitVec 7 := 0
  tail : Vector Byte 30 := Vector.replicate 30 0
deriving DecidableEq, Repr

/-- The fields of a MGMT cell beside its unit and request kind (kind 6 of Formats); Formats gives its subcode no meaning,
and it is not read. -/
structure MgmtCell where
  destination : Byte
  groups : GroupMask
  transaction : Byte
  length : Byte
  payload : Vector Byte 30
  subcode : BitVec 4 := 0
deriving DecidableEq, Repr

/-- A good cell the station only forwards or fills: the subcode of byte 0 and bytes 1..37 as they came. -/
structure RawCell where
  subcode : BitVec 4
  bytes : Vector Byte 37
deriving DecidableEq, Repr

/-- What a TICK command brings about: the whole tick, or one of its two parts. Other events of the same millisecond may be
taken between the counting and the advance of local time (R33, R64, R127, log 4). `contacts` is the levels the contact
input pins show at the tick, bit n for CINn, 1 HIGH. -/
inductive TickPart where
  | whole (contacts : BitVec 8)
  | count (contacts : BitVec 8)
  | advance
deriving DecidableEq, Repr

/-- The commands of the block, one for each row of spec/opcode_table.json.

A command that is a cell carries that cell's fields; it stands for the moment the cell has been wholly received.
A command that is an event of the tick stands for the moment the event is taken. The two resets carry the address straps;
`syncCell` carries whether the cell's start was on time (R158). -/
inductive Instr where
  | powerOn (straps : BitVec 6)
  | resetPin (straps : BitVec 6)
  | tick (part : TickPart)
  | beacon (c : BeaconCell)
  | beaconLossExpiry
  | bellCancel (immediate : Bool) (c : BellCell)
  | bellImmediate (c : BellCell)
  | bellBooking (c : BellCell)
  | patternPhaseEnd (z : Zone)
  | replaySpacingExpiry
  | rampStep (z : Zone)
  | schedChimeEnd
  | sessionOpen (c : SessionCell)
  | sessionClose (c : SessionCell)
  | audio (c : AudioCell)
  | sessionChimeEnd (n : SlotId)
  | playoutTake (n : SlotId)
  | sessionTimeout (n : SlotId)
  | impulseEnd (k : CircuitId)
  | gapEnd (k : CircuitId)
  | frameMoment (k : CircuitId)
  | drillStart (c : DrillCell)
  | drillSilence (c : DrillCell)
  | drillMuster (c : DrillCell)
  | drillAllClear (c : DrillCell)
  | drillAbort (c : DrillCell)
  | soundLimit
  | allClearChimeEnd
  | evacSignalPhase
  | debouncedChange (n : InputId)
  | emptyCell (c : RawCell)
  | replyCell (c : RawCell)
  | noticeCell (c : RawCell)
  | unknownKindCell (kind : BitVec 4) (c : RawCell)
  | mgmtForward (unit : Byte) (kind : Byte) (c : MgmtCell)
  | damagedCell (c : Cell)
  | shortCell
  | missingStart
  | syncCell (onTime : Bool) (c : Cell)
  | sourcedEmptyCell
  | echo (unit : Byte) (c : MgmtCell)
  | readPage (unit : Byte) (c : MgmtCell)
  | writeSetting (unit : Byte) (c : MgmtCell)
  | readSetting (unit : Byte) (c : MgmtCell)
  | setCursor (unit : Byte) (c : MgmtCell)
  | writePart (unit : Byte) (c : MgmtCell)
  | readPart (unit : Byte) (c : MgmtCell)
  | clearEntry (unit : Byte) (c : MgmtCell)
  | clearEvents (unit : Byte) (c : MgmtCell)
  | clearLog (unit : Byte) (c : MgmtCell)
  | setDial (unit : Byte) (c : MgmtCell)
  | unitResetTime (c : MgmtCell)
  | unitResetBells (c : MgmtCell)
  | unitResetZones (c : MgmtCell)
  | unitResetAnnounce (c : MgmtCell)
  | unitResetClocks (c : MgmtCell)
  | unitResetDrill (c : MgmtCell)
  | unitResetInputs (c : MgmtCell)
  | stationReset (unit : Byte) (c : MgmtCell)
  | sessionMalformed (code : BitVec 4) (c : SessionCell)
  | drillMalformed (code : BitVec 4) (c : DrillCell)
  | unknownRequestKind (unit : Byte) (kind : Byte) (c : MgmtCell)
deriving DecidableEq, Repr

end Sys2Proof
end

