-- ==== Sys2Proof/Machine/Check.lean ====
section
/-! DEFINITION. The check of a cell (R159), and the bytes of multi-byte fields. -/

namespace Sys2Proof.Machine

/-- One bit shifted into the check register, generator x^16 + x^12 + x^5 + 1 (R159). -/
def crcBit (reg : BitVec 16) (bit : Bool) : BitVec 16 :=
  if reg.msb ^^ bit then (reg <<< 1) ^^^ 0x1021#16 else reg <<< 1

/-- One byte, most significant bit first (R159). -/
def crcByte (reg : BitVec 16) (b : Byte) : BitVec 16 :=
  (List.range 8).foldl (fun r i => crcBit r (b.getMsbD i)) reg

/-- The check of R159: the register starts at all ones; no reflection and no final inversion. -/
def crc16 (bytes : List Byte) : BitVec 16 := bytes.foldl crcByte 0xFFFF#16

/-- A received cell is good when the check computed over its bytes 0 to 37 equals its bytes 38 and 39 (R159). -/
def cellGood (c : Cell) : Bool := crc16 c.body.toList == c.check

/-- A cell the line interface writes: its bytes 0 to 37, and the check it computes itself (R157, R159). -/
def sealCell (body : Vector Byte 38) : Cell := { body, check := crc16 body.toList }

/-- The 40 bytes of a cell: bytes 0 to 37, and the check with its high byte in byte 38 (R157, R159). -/
def cellBytes (c : Cell) : Vector Byte 40 :=
  Vector.ofFn fun i =>
    if h : i.val < 38 then c.body[i.val]
    else if i.val = 38 then c.check.extractLsb' 8 8 else c.check.extractLsb' 0 8

/-- The cell of 40 received bytes (R157, R159). -/
def cellOfBytes (b : Vector Byte 40) : Cell :=
  { body := Vector.ofFn fun i : Fin 38 => b[i.val], check := b[38] ++ b[39] }

/-- Bytes 0 to 37 from a layout's leading bytes; the rest are 0 (Formats). -/
def bodyOf (bytes : List Byte) : Vector Byte 38 := Vector.ofFn fun i => bytes.getD i.val 0

/-- Byte n of a word, n counted from the least significant. -/
def byteOf {w : Nat} (v : BitVec w) (n : Nat) : Byte := v.extractLsb' (8 * n) 8

/-- A 2-byte field, most significant byte first (00_scope). -/
def be16 (v : BitVec 16) : List Byte := [byteOf v 1, byteOf v 0]

/-- A 3-byte field, most significant byte first (00_scope). -/
def be24 (v : BitVec 24) : List Byte := [byteOf v 2, byteOf v 1, byteOf v 0]

/-- A 4-byte field, most significant byte first (00_scope). -/
def be32 (v : BitVec 32) : List Byte := [byteOf v 3, byteOf v 2, byteOf v 1, byteOf v 0]

/-- Byte 0 of a cell: the kind in the high four bits and the subcode in the low four (R157). -/
def headByte (kind subcode : BitVec 4) : Byte := kind ++ subcode

/-- The EMPTY cell the line interface writes: bytes 0 to 37 zero and a fresh check (R163). -/
def emptyCell : Cell := sealCell (bodyOf [])

end Sys2Proof.Machine
end

