-- ==== Sys2Proof/Machine/Formats.lean ====
section
/-! DEFINITION. The wire layouts of the cells a station receives (Formats of 09_the_signal_line.md): the 40 bytes
each cell command stands for, the bits and bytes the station does not read included. -/

namespace Sys2Proof.Machine

/-- BEACON (kind 1). -/
def beaconCell (c : BeaconCell) : Cell :=
  sealCell (bodyOf ([headByte 1 (c.spare ++ BitVec.ofBool c.stepFlag)] ++ be16 c.day ++ [c.weekday] ++ be32 c.ms ++
    c.tail.toList))

/-- AUDIO (kind 2). -/
def audioCell (c : AudioCell) : Cell :=
  sealCell (bodyOf ([headByte 2 c.channel, c.sequence] ++ c.samples.toList.flatMap be16 ++ c.tail.toList))

/-- SESSION (kind 3), with its kind code: 1 OPEN, 2 CLOSE, others malformed. -/
def sessionCell (code : BitVec 4) (c : SessionCell) : Cell :=
  sealCell (bodyOf ([headByte 3 code, c.channel] ++ be16 c.groups ++ [BitVec.ofBool c.chime ++ (c.spare ++ c.priority), c.gain]
    ++ be16 c.zones ++ c.tail.toList))

/-- BELL (kind 4), with its cancel and immediate flags. -/
def bellCell (cancel immediate : Bool) (c : BellCell) : Cell :=
  sealCell (bodyOf ([headByte 4 (c.spare ++ (BitVec.ofBool immediate ++ BitVec.ofBool cancel)), c.id] ++ be16 c.groups ++
    [c.pattern] ++ be16 c.dueDay ++ be32 c.dueMs ++ be16 c.zones ++ c.tail.toList))

/-- DRILL (kind 5), with its command: 1 START, 2 SILENCE, 3 MUSTER, 4 ALL_CLEAR, 5 ABORT, others malformed. -/
def drillCell (command : BitVec 4) (c : DrillCell) : Cell :=
  sealCell (bodyOf ([headByte 5 command, c.spare ++ BitVec.ofBool c.zonesGiven] ++ be16 c.groups ++ be16 c.number ++
    be16 c.zones ++ c.tail.toList))

/-- MGMT (kind 6), with its unit and request kind. -/
def mgmtCell (unit kind : Byte) (c : MgmtCell) : Cell :=
  sealCell (bodyOf ([headByte 6 c.subcode, c.destination] ++ be16 c.groups ++ [c.transaction, unit, kind, c.length] ++
    c.payload.toList))

/-- A cell of a kind the station only forwards, fills or counts: EMPTY 0, REPLY 7, NOTICE 8, unknown 9..15. -/
def rawCell (kind : BitVec 4) (c : RawCell) : Cell :=
  sealCell (bodyOf (headByte kind c.subcode :: c.bytes.toList))

/-- The cell a cell command stands for; the other rows are no cells. -/
def cellOf : Instr → Option Cell
  | .beacon c => some (beaconCell c)
  | .bellCancel immediate c => some (bellCell true immediate c)
  | .bellImmediate c => some (bellCell false true c)
  | .bellBooking c => some (bellCell false false c)
  | .sessionOpen c => some (sessionCell 1 c)
  | .sessionClose c => some (sessionCell 2 c)
  | .sessionMalformed code c => some (sessionCell code c)
  | .audio c => some (audioCell c)
  | .drillStart c => some (drillCell 1 c)
  | .drillSilence c => some (drillCell 2 c)
  | .drillMuster c => some (drillCell 3 c)
  | .drillAllClear c => some (drillCell 4 c)
  | .drillAbort c => some (drillCell 5 c)
  | .drillMalformed command c => some (drillCell command c)
  | .emptyCell c => some (rawCell 0 c)
  | .replyCell c => some (rawCell 7 c)
  | .noticeCell c => some (rawCell 8 c)
  | .unknownKindCell kind c => some (rawCell kind c)
  | .damagedCell c => some c
  | .syncCell _ c => some c
  | .mgmtForward unit kind c => some (mgmtCell unit kind c)
  | .echo unit c => some (mgmtCell unit 0 c)
  | .readPage unit c => some (mgmtCell unit 1 c)
  | .writeSetting unit c => some (mgmtCell unit 2 c)
  | .readSetting unit c => some (mgmtCell unit 3 c)
  | .setCursor unit c => some (mgmtCell unit 4 c)
  | .writePart unit c => some (mgmtCell unit 5 c)
  | .readPart unit c => some (mgmtCell unit 6 c)
  | .clearEntry unit c => some (mgmtCell unit 7 c)
  | .clearEvents unit c => some (mgmtCell unit 8 c)
  | .clearLog unit c => some (mgmtCell unit 9 c)
  | .setDial unit c => some (mgmtCell unit 10 c)
  | .unitResetTime c => some (mgmtCell 1 11 c)
  | .unitResetBells c => some (mgmtCell 2 11 c)
  | .unitResetZones c => some (mgmtCell 3 11 c)
  | .unitResetAnnounce c => some (mgmtCell 4 11 c)
  | .unitResetClocks c => some (mgmtCell 5 11 c)
  | .unitResetDrill c => some (mgmtCell 6 11 c)
  | .unitResetInputs c => some (mgmtCell 7 11 c)
  | .stationReset unit c => some (mgmtCell unit 12 c)
  | .unknownRequestKind unit kind c => some (mgmtCell unit kind c)
  | .powerOn _ => none
  | .resetPin _ => none
  | .tick _ => none
  | .beaconLossExpiry => none
  | .patternPhaseEnd _ => none
  | .replaySpacingExpiry => none
  | .rampStep _ => none
  | .schedChimeEnd => none
  | .sessionChimeEnd _ => none
  | .playoutTake _ => none
  | .sessionTimeout _ => none
  | .impulseEnd _ => none
  | .gapEnd _ => none
  | .frameMoment _ => none
  | .soundLimit => none
  | .allClearChimeEnd => none
  | .evacSignalPhase => none
  | .debouncedChange _ => none
  | .shortCell => none
  | .missingStart => none
  | .sourcedEmptyCell => none

end Sys2Proof.Machine
end

