-- ==== Sys2Proof/Decode.lean ====
section
/-! DEFINITION. The decoder of the opcode table's words, and the reading of a received cell as a command (R161, R162,
Formats). -/

namespace Sys2Proof

/-- The command a word spells by the table's bits. No row of spec/opcode_table.json gives bits, so no word spells one
(log 2). -/
def decodeTableWord (_nbits _w : Nat) : Option Instr := none

namespace Machine

/-- Byte n of a cell's bytes 0 to 37. -/
def cellByte (c : Cell) (n : Fin 38) : Byte := c.body[n]

/-- A 2-byte field at bytes n and m. -/
def cellWord (c : Cell) (n m : Fin 38) : BitVec 16 := c.body[n] ++ c.body[m]

/-- A 4-byte field. -/
def cellQuad (c : Cell) (n m p q : Fin 38) : BitVec 32 := cellWord c n m ++ cellWord c p q

/-- The kind of a cell: the high four bits of byte 0 (R157). -/
def cellKind (c : Cell) : BitVec 4 := (cellByte c 0).extractLsb' 4 4

/-- The subcode of a cell: the low four bits of byte 0 (R157). -/
def cellSubcode (c : Cell) : BitVec 4 := (cellByte c 0).extractLsb' 0 4

/-- The last n of a cell's bytes 0 to 37. -/
def cellTail (c : Cell) (n : Nat) : Vector Byte n := Vector.ofFn fun i => c.body.toList.getD (38 - n + i.val) 0

/-- The fields of a BEACON cell. -/
def beaconOf (c : Cell) : BeaconCell :=
  { stepFlag := (cellByte c 0).getLsbD 0, day := cellWord c 1 2, weekday := cellByte c 3, ms := cellQuad c 4 5 6 7,
    spare := (cellByte c 0).extractLsb' 1 3, tail := cellTail c 30 }

/-- The fields of an AUDIO cell. -/
def audioOf (c : Cell) : AudioCell :=
  { channel := cellSubcode c, sequence := cellByte c 1,
    samples := Vector.ofFn fun i => c.body[2 + 2 * i.val] ++ c.body[3 + 2 * i.val],
    tail := cellTail c 4 }

/-- The fields of a SESSION cell. -/
def sessionOf (c : Cell) : SessionCell :=
  { channel := cellByte c 1, groups := cellWord c 2 3, priority := (cellByte c 4).extractLsb' 0 3,
    chime := (cellByte c 4).getLsbD 7, gain := cellByte c 5, zones := cellWord c 6 7,
    spare := (cellByte c 4).extractLsb' 3 4, tail := cellTail c 30 }

/-- The fields of a BELL cell. -/
def bellOf (c : Cell) : BellCell :=
  { id := cellByte c 1, groups := cellWord c 2 3, pattern := cellByte c 4, dueDay := cellWord c 5 6,
    dueMs := cellQuad c 7 8 9 10, zones := cellWord c 11 12, spare := (cellByte c 0).extractLsb' 2 2,
    tail := cellTail c 25 }

/-- The fields of a DRILL cell. -/
def drillOf (c : Cell) : DrillCell :=
  { zonesGiven := (cellByte c 1).getLsbD 0, groups := cellWord c 2 3, number := cellWord c 4 5, zones := cellWord c 6 7,
    spare := (cellByte c 1).extractLsb' 1 7, tail := cellTail c 30 }

/-- The fields of a MGMT cell beside its unit and kind. -/
def mgmtOf (c : Cell) : MgmtCell :=
  { destination := cellByte c 1, groups := cellWord c 2 3, transaction := cellByte c 4, length := cellByte c 7,
    payload := Vector.ofFn fun i => c.body[8 + i.val], subcode := cellSubcode c }

/-- The bytes of a cell the station only forwards, fills or counts. -/
def rawOf (c : Cell) : RawCell :=
  { subcode := cellSubcode c, bytes := Vector.ofFn fun i => c.body[1 + i.val] }

/-- A SESSION cell as a command: malformed for a channel above 7 or a kind code that is none of OPEN and CLOSE (R92). -/
def readSession (code : BitVec 4) (f : SessionCell) : Instr :=
  if 7 < f.channel.toNat then .sessionMalformed code f
  else if code = 1 then .sessionOpen f
  else if code = 2 then .sessionClose f
  else .sessionMalformed code f

/-- A BELL cell as a command: the cancel flag is read first (R51). -/
def readBell (cancel immediate : Bool) (f : BellCell) : Instr :=
  if cancel then .bellCancel immediate f else if immediate then .bellImmediate f else .bellBooking f

/-- A DRILL cell as a command (R140). -/
def readDrill (command : BitVec 4) (f : DrillCell) : Instr :=
  match command.toNat with
  | 1 => .drillStart f
  | 2 => .drillSilence f
  | 3 => .drillMuster f
  | 4 => .drillAllClear f
  | 5 => .drillAbort f
  | _ => .drillMalformed command f

/-- A UNIT_RESET as a command, by its unit (R166). -/
def readUnitReset (unit : Byte) (f : MgmtCell) : Instr :=
  match unit.toNat with
  | 1 => .unitResetTime f
  | 2 => .unitResetBells f
  | 3 => .unitResetZones f
  | 4 => .unitResetAnnounce f
  | 5 => .unitResetClocks f
  | 6 => .unitResetDrill f
  | 7 => .unitResetInputs f
  | _ => .unknownRequestKind unit 11 f

/-- A MGMT cell as the request it carries (R166). -/
def readMgmt (unit kind : Byte) (f : MgmtCell) : Instr :=
  match kind.toNat with
  | 0 => .echo unit f
  | 1 => .readPage unit f
  | 2 => .writeSetting unit f
  | 3 => .readSetting unit f
  | 4 => .setCursor unit f
  | 5 => .writePart unit f
  | 6 => .readPart unit f
  | 7 => .clearEntry unit f
  | 8 => .clearEvents unit f
  | 9 => .clearLog unit f
  | 10 => .setDial unit f
  | 11 => readUnitReset unit f
  | 12 => .stationReset unit f
  | _ => .unknownRequestKind unit kind f

/-- The command a complete received cell is: DAMAGED_CELL when its check is wrong, and else by its kind (R159 to R161).
A MGMT cell is read as the request it carries, wherever it is addressed. -/
def readCell (c : Cell) : Instr :=
  if cellGood c = false then .damagedCell c
  else
    match (cellKind c).toNat with
    | 0 => .emptyCell (rawOf c)
    | 1 => .beacon (beaconOf c)
    | 2 => .audio (audioOf c)
    | 3 => readSession (cellSubcode c) (sessionOf c)
    | 4 => readBell ((cellByte c 0).getLsbD 0) ((cellByte c 0).getLsbD 1) (bellOf c)
    | 5 => readDrill (cellSubcode c) (drillOf c)
    | 6 => readMgmt (cellByte c 5) (cellByte c 6) (mgmtOf c)
    | 7 => .replyCell (rawOf c)
    | 8 => .noticeCell (rawOf c)
    | _ => .unknownKindCell (cellKind c) (rawOf c)

/-- The command 40 received bytes are (R157, R159). -/
def readBytes (b : Vector Byte 40) : Instr := readCell (cellOfBytes b)

end Machine

end Sys2Proof
end

