-- ==== Sys2Proof/Config.lean ====
section
/-! DEFINITION. What one implementation of the BZ440 fixes, and the values the spec leaves free. -/

namespace Sys2Proof.Config

/-- The phase at which the chime generator's sine of a frequency starts, in the units of `Machine.turnUnits`. R106 gives
frequency, length and peak level, not the phase of the first sample: a FREE VALUE (log 26). -/
opaque startPhase (hertz : Nat) : Nat

/-- Sample n of a tone is rounded up, and else down. R106 gives no rounding: a FREE VALUE (log 26). -/
opaque roundsUp (hertz n : Nat) : Bool

/-- A data bit of 1 is sent on CKAn at the high level. Formats gives the levels of the start bit, the stop bit and the
resting line, not those of the data bits: a FREE VALUE (log 27). -/
opaque oneIsHigh : Bool

/-- The byte a page shows at a place whose field holds no value, where Management gives that field no form, at a tick
count: a FREE VALUE (log 30). -/
opaque unshown (place : Nat) (now : Tick) : Byte

/-- The vendor code of page 0 (R172). -/
def vendorCode : Byte := 0x3A

/-- The part code of page 0 (R172). -/
def partCode : BitVec 16 := 440

/-- The revision letter of page 0, A in this revision (R172). -/
def revision : Byte := 0x41

end Sys2Proof.Config
end

