-- ==== Sys2Proof/Machine/Blocks.lean ====
section
/-! DEFINITION. The ten blocks of the BZ440: the state each owns, and its values after power-on. A field that a rule
says holds no value is written as 0 or its type's first name and is not read then (log 6). -/

namespace Sys2Proof.Machine

/-! ## Time base (01_campus_time.md) -/

/-- A moment of campus time: a day number and the ms of that day (00_scope). -/
structure Instant where
  day : BitVec 16
  ms : Nat
deriving DecidableEq, Repr

/-- The campus time record: day number D, weekday W (0 is Monday) and ms of day M (R1). -/
structure CampusTime where
  day : BitVec 16
  weekday : Fin 7
  ms : Nat
deriving DecidableEq, Repr

/-- The time state of R2. -/
inductive TimeState where
  | unset | locked | holdover
deriving DecidableEq, Repr

/-- The time base (R1 to R18). `phase` is the boundary phase of the present tick; while `state` is UNSET `now` holds
no time. `advanceDue` is set from the counting of a tick to its advance of local time (log 4). -/
structure TimeBase where
  state : TimeState
  now : CampusTime
  slew : Int
  lossTimer : Nat
  tick : Tick
  phase : Nat
  keptStep : Int
  validCount : Count
  malformedCount : Count
  stepCount : Count
  stepThreshold : Nat
  lossLimit : Nat
  delayComp : Nat
  advanceDue : Bool
deriving DecidableEq, Repr

/-- The values of R18. -/
def TimeBase.initial : TimeBase :=
  { state := .unset, now := { day := 0, weekday := 0, ms := 0 }, slew := 0, lossTimer := 0, tick := 0, phase := 0,
    keptStep := 0, validCount := 0, malformedCount := 0, stepCount := 0,
    stepThreshold := 2000, lossLimit := 10, delayComp := 0, advanceDue := false }

/-! ## Bell sequencer (02_bell_plans…, 03_bell_lines…) -/

/-- What a plan event does when it fires (R22). -/
inductive Action where
  | bell | chime | mark
deriving DecidableEq, Repr

/-- One event slot of a plan (R22). `label` is absent or 0..99. -/
structure PlanEvent where
  valid : Bool
  time : Nat
  zones : ZoneSet
  action : Action
  pattern : Fin 16
  label : Option Nat
deriving DecidableEq, Repr

/-- An empty slot, every other field at its power-on value (R22, R24). -/
def PlanEvent.empty : PlanEvent :=
  { valid := false, time := 0, zones := 0, action := .bell, pattern := 0, label := none }

/-- A plan of 48 event slots (R22). -/
abbrev Plan := Vector PlanEvent 48

/-- A plan number, or `none` for NO_BELLS (R26, R27). -/
abbrev PlanChoice := Option (Fin 8)

/-- One slot of the exception list (R27). -/
structure Exception where
  valid : Bool
  day : BitVec 16
  plan : PlanChoice
deriving DecidableEq, Repr

/-- An empty exception slot (R27). -/
def Exception.empty : Exception := { valid := false, day := 0, plan := none }

/-- Today's selection: none while UNSET, NO_BELLS, or a plan (R28). -/
inductive Selection where
  | none | noBells | plan (n : Fin 8)
deriving DecidableEq, Repr

/-- Where today's selection came from (R28). -/
inductive Source where
  | none | dayMap | slot (n : Fin 32)
deriving DecidableEq, Repr

/-- Where a bell came from (R48). -/
inductive Origin where
  | plan | line | input
deriving DecidableEq, Repr

/-- One commanded bell waiting for its due instant; its origin is always LINE (R55). -/
structure PendingBell where
  id : Byte
  zones : ZoneSet
  pattern : Fin 16
  due : Instant
deriving DecidableEq, Repr

/-- What a deferred entry sounds: a pattern, or CHIME (R59). -/
inductive Sound where
  | pattern (n : Fin 16) | chime
deriving DecidableEq, Repr

/-- One position of the deferred queue (R59). -/
structure Deferred where
  zones : ZoneSet
  sound : Sound
  due : Option Instant
  origin : Origin
deriving DecidableEq, Repr

/-- The replay state of R60. -/
inductive ReplayState where
  | idle | running
deriving DecidableEq, Repr

/-- The replay policy of R66. -/
inductive ReplayPolicy where
  | none | latest | all
deriving DecidableEq, Repr

/-- The bell sequencer (R22 to R44, R51 to R68). `mark` is H; `deferred` is oldest first, and its newest position is
the overrun marker when `marker` is set; `spacing` is the ms left on the spacing timer. -/
structure BellSequencer where
  plans : Vector Plan 8
  dayMap : Vector PlanChoice 7
  exceptions : Vector Exception 32
  selection : Selection
  source : Source
  mark : Option Instant
  planFired : Count
  planFiredLate : Count
  planDeferred : Count
  planSkipped : Count
  lateGrace : Nat
  pendingBells : List PendingBell
  deferred : List Deferred
  marker : Bool
  replay : ReplayState
  spacing : Nat
  lineFired : Count
  lineFiredLate : Count
  lineDeferred : Count
  lineSkipped : Count
  lineMalformed : Count
  lineListFull : Count
  lineCancelled : Count
  inputRung : Count
  inputDeferred : Count
  deferredLost : Count
  deferredOverruns : Count
  replayed : Count
  replayDiscarded : Count
  replayPolicy : ReplayPolicy
  replaySpacing : Nat
  replayAge : Nat
deriving DecidableEq, Repr

/-- The values of R43, R65, R66 and R67 after power-on. -/
def BellSequencer.initial : BellSequencer :=
  { plans := Vector.replicate 8 (Vector.replicate 48 PlanEvent.empty), dayMap := Vector.replicate 7 none,
    exceptions := Vector.replicate 32 Exception.empty, selection := .none, source := .none, mark := none,
    planFired := 0, planFiredLate := 0, planDeferred := 0, planSkipped := 0, lateGrace := 60,
    pendingBells := [], deferred := [], marker := false, replay := .idle, spacing := 0,
    lineFired := 0, lineFiredLate := 0, lineDeferred := 0, lineSkipped := 0, lineMalformed := 0, lineListFull := 0,
    lineCancelled := 0, inputRung := 0, inputDeferred := 0, deferredLost := 0, deferredOverruns := 0, replayed := 0,
    replayDiscarded := 0, replayPolicy := .latest, replaySpacing := 5, replayAge := 1800 }

/-! ## Bell output unit (03_bell_lines…) -/

/-- One record of the pattern table (R45): lead ring in ms, period mantissa a and exponent b, stroke count. -/
structure Pattern where
  lead : Nat
  a : Nat
  b : Nat
  strokes : Nat
deriving DecidableEq, Repr

/-- The silent record of R45. -/
def Pattern.silent : Pattern := { lead := 0, a := 0, b := 0, strokes := 0 }

/-- The phase of a pattern player (R48). -/
inductive PlayerPhase where
  | lead | strokeOn | strokeOff | done
deriving DecidableEq, Repr

/-- The pattern player of one zone (R48). -/
structure Player where
  record : Pattern
  origin : Origin
  phase : PlayerPhase
  strokesLeft : Nat
  timeLeft : Nat
deriving DecidableEq, Repr

/-- A player in DONE holds no bell (R48). -/
def Player.idle : Player :=
  { record := Pattern.silent, origin := .plan, phase := .done, strokesLeft := 0, timeLeft := 0 }

/-- The bell output unit (R45, R48). -/
structure BellOutput where
  patterns : Vector Pattern 16
  players : Vector Player 16
deriving DecidableEq, Repr

/-- Record 0 is a single 3 s ring, records 1 to 15 are silent, every player is in DONE (R45, R48). -/
def BellOutput.initial : BellOutput :=
  { patterns := (Vector.replicate 16 Pattern.silent).set 0 { Pattern.silent with lead := 3000 },
    players := Vector.replicate 16 Player.idle }

/-! ## Zone arbiter (04_zones…) -/

/-- Who holds a zone's speaker feed (R70). -/
inductive Owner where
  | none | slot (n : SlotId) | chime | drill
deriving DecidableEq, Repr

/-- The owner class: none, a number 1..7, or yielding 6 (R70, R71). -/
inductive OwnerClass where
  | none | rank (n : Nat) | yielding
deriving DecidableEq, Repr

/-- Who waits at the head of a handover (R70). -/
inductive Claimant where
  | slot (n : SlotId) | chime
deriving DecidableEq, Repr

/-- What a zone owned by DRILL carries (R70). -/
inductive DrillSource where
  | evac | allClear | silent
deriving DecidableEq, Repr

/-- The ramp state of R73. -/
inductive Ramp where
  | steady | up | down
deriving DecidableEq, Repr

/-- Who holds a zone's bell line (R70). -/
inductive BellOwner where
  | none | pattern (o : Origin) | drill
deriving DecidableEq, Repr

/-- One zone record: configuration part (R69) and live part (R70). `down` is DOWN_FOR_HANDOVER; `rampTimer` is the ms
to the next 2 ms step of a running ramp (R73). `chimeClaimed` is the tick count of the claim by which SCHED_CHIME owns the
zone, none under any other owner: `chimeEnd` may by then be that of a new pending chime (R80). -/
structure ZoneRec where
  enabled : Bool
  inDrill : Bool
  maxGain : Nat
  defaultGain : Nat
  owner : Owner
  cls : OwnerClass
  releasing : Bool
  claimant : Option Claimant
  chimeEnd : Option Tick
  chimeClaimed : Option Tick
  drillSource : Option DrillSource
  gain : Nat
  target : Nat
  ramp : Ramp
  rampTimer : Nat
  bellOwner : BellOwner
deriving DecidableEq, Repr

/-- The live part of R70 after power-on, reset pin and station reset; the configuration part is kept. -/
def ZoneRec.cleared (r : ZoneRec) : ZoneRec :=
  { r with owner := .none, cls := .none, releasing := false, claimant := none, chimeEnd := none, chimeClaimed := none,
           drillSource := none, gain := 0, target := 0, ramp := .steady, rampTimer := 0, bellOwner := .none }

/-- The power-on values of R69 and R70. -/
def ZoneRec.initial : ZoneRec :=
  { enabled := true, inDrill := true, maxGain := 80, defaultGain := 60, owner := .none, cls := .none,
    releasing := false, claimant := none, chimeEnd := none, chimeClaimed := none, drillSource := none, gain := 0,
    target := 0, ramp := .steady, rampTimer := 0, bellOwner := .none }

/-- The zone arbiter: one record for each zone (R69, R70). -/
structure ZoneArbiter where
  zones : Vector ZoneRec 16
deriving DecidableEq, Repr

def ZoneArbiter.initial : ZoneArbiter := { zones := Vector.replicate 16 ZoneRec.initial }

/-! ## Announcement unit (05_announcement_channels.md) -/

/-- The stage of a session at this station (R91). -/
inductive SlotState where
  | free | chime | live | draining
deriving DecidableEq, Repr

/-- The 16 samples of one audio cell. -/
abbrev Samples := Vector Sample 16

/-- One session slot (R91). `openOrder` 0 is none; `playing` is the cell being played and `takeTimer` the ms to the
next take (R103). -/
structure Slot where
  state : SlotState
  channel : Option Byte
  priority : Nat
  requested : ZoneSet
  granted : ZoneSet
  targetGain : Nat
  chimeFlag : Bool
  chimeStart : Option Tick
  openOrder : Nat
  buffer : List Samples
  playout : Bool
  playing : Option Samples
  takeTimer : Nat
  expected : Option Byte
  lastCell : Option Samples
  audioTimer : Nat
deriving DecidableEq, Repr

/-- The FREE values of R91. -/
def Slot.free : Slot :=
  { state := .free, channel := none, priority := 1, requested := 0, granted := 0, targetGain := 0, chimeFlag := false,
    chimeStart := none, openOrder := 0, buffer := [], playout := false, playing := none, takeTimer := 0,
    expected := none, lastCell := none, audioTimer := 0 }

/-- The announcement unit: slots, counters (R107) and settings (R108). -/
structure AnnounceUnit where
  slots : Vector Slot 4
  opened : Count
  reopened : Count
  channelsFull : Count
  malformed : Count
  closes : Count
  timedOut : Count
  accepted : Count
  unbound : Count
  discarded : Count
  overrun : Count
  underrun : Count
  lost : Count
  concealed : Count
  stale : Count
  sessionTimeout : Nat
  chimeGain : Nat
deriving DecidableEq, Repr

/-- The values of R91, R107 and R108 after power-on. -/
def AnnounceUnit.initial : AnnounceUnit :=
  { slots := Vector.replicate 4 Slot.free, opened := 0, reopened := 0, channelsFull := 0, malformed := 0, closes := 0,
    timedOut := 0, accepted := 0, unbound := 0, discarded := 0, overrun := 0, underrun := 0, lost := 0, concealed := 0,
    stale := 0, sessionTimeout := 3, chimeGain := 56 }

/-! ## Clock circuit unit (06_impulse…, 07_display…) -/

/-- The mode of a circuit (R110). -/
inductive CircuitMode where
  | off | minute | half | display
deriving DecidableEq, Repr

/-- How region A writes the time of day (R125). -/
inductive RegionA where
  | hhmm24 | hhmm12 | hhmmss
deriving DecidableEq, Repr

/-- What region B shows outside a drill override (R125). -/
inductive RegionB where
  | blank | remain | label | seconds
deriving DecidableEq, Repr

/-- The polarity of an impulse (R110). -/
inductive Polarity where
  | pos | neg
deriving DecidableEq, Repr

/-- The state of an impulse circuit (R115). -/
inductive CircuitState where
  | off | waitTime | inStep | advance | hold
deriving DecidableEq, Repr

/-- A display frame: eight character codes, position 0 first, and the blink flag (R126). -/
structure Frame where
  codes : Vector (BitVec 4) 8
  blink : Bool
deriving DecidableEq, Repr

/-- The configuration record of a circuit, table CIRCUIT (R110, R125): width in ms, hold window in minutes. -/
structure CircuitConfig where
  mode : CircuitMode
  width : Nat
  hold : Nat
  split : Nat
  regionA : RegionA
  regionB : RegionB
  drillSplit : Nat
  linked : ZoneSet
deriving DecidableEq, Repr

/-- The power-on values of R110 and R125. -/
def CircuitConfig.initial : CircuitConfig :=
  { mode := .off, width := 1000, hold := 45, split := 5, regionA := .hhmm24, regionB := .remain, drillSplit := 5,
    linked := 0xFFFF }

/-- One entry of the retained store (R111). -/
structure Retained where
  dial : Nat
  polarity : Polarity
deriving DecidableEq, Repr

/-- An entry that has never been written reads as p = 0 and NEG (R111). -/
def Retained.unwritten : Retained := { dial := 0, polarity := .neg }

/-- One clock circuit. `inFlight` is the polarity of the impulse in flight, `impulseLeft` the ms left of it,
`widthInForce` the width it began with, `gap` the ms left of a running gap (R115, R116); `resetPending` is a reset
waiting for the impulse's end (R122); `frame` is the last frame put on CKAn and `sendLeft` the ms left of sending it
(R127, log 27). -/
structure Circuit where
  config : CircuitConfig
  retained : Retained
  state : CircuitState
  inFlight : Option Polarity
  impulseLeft : Nat
  widthInForce : Nat
  gap : Option Nat
  impulses : Count
  resetPending : Bool
  frameTimer : Nat
  frame : Option Frame
  sendLeft : Nat
deriving DecidableEq, Repr

/-- A circuit after power-on or reset pin, over the retained entry it keeps (R123). -/
def Circuit.initial (entry : Retained) : Circuit :=
  { config := CircuitConfig.initial, retained := entry, state := .off, inFlight := none, impulseLeft := 0,
    widthInForce := 0, gap := none, impulses := 0, resetPending := false, frameTimer := 0, frame := none, sendLeft := 0 }

/-- The clock circuit unit. -/
structure ClockUnit where
  circuits : Vector Circuit 4
deriving DecidableEq, Repr

/-- After power-on or reset pin: power-on records over the retained entries (R111, R123). -/
def ClockUnit.initial (store : Vector Retained 4) : ClockUnit :=
  { circuits := Vector.ofFn fun k => Circuit.initial store[k] }

/-- The retained store of the unit (R111). -/
def ClockUnit.store (u : ClockUnit) : Vector Retained 4 := Vector.ofFn fun k => u.circuits[k].retained

/-! ## Drill controller (08_drill…) -/

/-- The drill state of R138. -/
inductive DrillState where
  | idle | sounding | silenced | clearing | panel
deriving DecidableEq, Repr

/-- The kind of a drill record (R149). -/
inductive RecordKind where
  | drill | panel
deriving DecidableEq, Repr

/-- Where a drill command came from (R149). -/
inductive DrillOrigin where
  | line | input
deriving DecidableEq, Repr

/-- The outcome of a drill record (R149). -/
inductive RecordOutcome where
  | opened | cleared | aborted | superseded | reset
deriving DecidableEq, Repr

/-- One drill record (R149). -/
structure DrillRecord where
  kind : RecordKind
  number : BitVec 16
  source : DrillOrigin
  start : Option Instant
  silence : Option Nat
  limit : Bool
  muster : Option Nat
  musters : Count
  endElapsed : Nat
  outcome : RecordOutcome
  deferred : Count
  lost : Count
deriving DecidableEq, Repr

/-- The drill controller (R138, R150, R151). `ring` is newest first; `openRecord` is the ring position of the OPEN
record; `panelStart` is the tick count and the instant of entry to PANEL; `evacSignal` is the evacuation signal as last
switched (R142). -/
structure DrillController where
  state : DrillState
  named : ZoneSet
  seized : ZoneSet
  drillStart : Option Tick
  evacStart : Option Tick
  evacSignal : Bool
  chimeStart : Option Tick
  panelStart : Option (Tick × Option Instant)
  panelDeferred : Count
  panelLost : Count
  openRecord : Option Nat
  ring : List DrillRecord
  startedLine : Count
  startedInput : Count
  ignored : Count
  malformed : Count
  inPanel : Count
  episodes : Count
  localRefused : Count
  soundLimit : Nat
  drillGain : Nat
  localStart : Bool
deriving DecidableEq, Repr

/-- The values of R138, R150 and R151 after power-on. -/
def DrillController.initial : DrillController :=
  { state := .idle, named := 0, seized := 0, drillStart := none, evacStart := none, evacSignal := false,
    chimeStart := none, panelStart := none, panelDeferred := 0, panelLost := 0, openRecord := none, ring := [],
    startedLine := 0, startedInput := 0, ignored := 0, malformed := 0, inPanel := 0, episodes := 0, localRefused := 0,
    soundLimit := 180, drillGain := 72, localStart := false }

/-! ## Contact input unit (08_drill…) -/

/-- What a contact means (R152). -/
inductive InputFunction where
  | none | drillStart | drillSilence | muster | allClear | panelAlarm | bellRing | general
deriving DecidableEq, Repr

/-- One contact input: record (R152), debounced level, debounce timer and change bit (R153). Levels are true for HIGH.
`pin` is the level last sampled. -/
structure Contact where
  function : InputFunction
  activeHigh : Bool
  pattern : Fin 16
  zones : ZoneSet
  level : Bool
  timer : Nat
  changed : Bool
  pin : Bool
deriving DecidableEq, Repr

/-- The values of R152 and R156 after power-on. -/
def Contact.initial : Contact :=
  { function := .none, activeHigh := false, pattern := 0, zones := 0, level := true, timer := 0, changed := false,
    pin := true }

/-- The contact input unit. -/
structure ContactUnit where
  inputs : Vector Contact 8
deriving DecidableEq, Repr

def ContactUnit.initial : ContactUnit := { inputs := Vector.replicate 8 Contact.initial }

/-! ## Line interface (09_the_signal_line.md) -/

/-- The receive sync state of R158. -/
inductive Sync where
  | up | down
deriving DecidableEq, Repr

/-- The line interface: sync and its counts (R158), the cell in transit out on LOUT (R157), the ms of tick the line has
been DOWN (R158), and the counters of R164. -/
structure LineInterface where
  sync : Sync
  missing : Nat
  good : Nat
  downMs : Nat
  out : Cell
  goodCells : Count
  damagedCells : Count
  shortCells : Count
  unknownKind : Count
  syncLosses : Count
  consumed : Count
  sent : Count
deriving DecidableEq, Repr

/-- Power-on and reset pin put the state at DOWN with self-timed EMPTY cells on LOUT (R158, R164). -/
def LineInterface.initial : LineInterface :=
  { sync := .down, missing := 0, good := 0, downMs := 0, out := emptyCell, goodCells := 0, damagedCells := 0,
    shortCells := 0, unknownKind := 0, syncLosses := 0, consumed := 0, sent := 0 }

/-! ## Management unit (10_management.md) -/

/-- The outcome codes of replies (R165). -/
inductive ReplyCode where
  | ok | clamped | range | inUse | busy | field | unknown
deriving DecidableEq, Repr

/-- An entry of the outbound queue (R165, R167, R168). -/
inductive Outbound where
  | reply (station : BitVec 6) (group : Fin 16) (transaction unit kind : Byte) (code : ReplyCode) (payload : List Byte)
  | notice (station : BitVec 6) (group : Fin 16) (flag : Fin 16) (snapshot : List Byte)
deriving DecidableEq, Repr

/-- The entry of the error log: bytes 0 to 7 of the damaged cell, the received and the computed check (R160). -/
structure LogEntry where
  bytes : List Byte
  received : BitVec 16
  computed : BitVec 16
deriving DecidableEq, Repr

/-- The tables of the table cursor (R171). -/
inductive Table where
  | plan (n : Fin 8) | dayMap | except | pattern | zone | circuit | input
deriving DecidableEq, Repr

/-- The table cursor (R171). -/
structure Cursor where
  table : Table
  index : Nat
  part : Nat
deriving DecidableEq, Repr

/-- The cursor's start value (R171). -/
def Cursor.start : Cursor := { table := .plan 0, index := 0, part := 0 }

/-- The content of one part: 26 bytes (R171). -/
abbrev Part := Vector Byte 26

/-- The cause of the last restart (R173). -/
inductive RestartCause where
  | powerOn | resetPin | stationReset
deriving DecidableEq, Repr

/-- The management unit (R165 to R174). `station` is 0 when the station is unaddressed; `staged` is part 0 first. -/
structure ManagementUnit where
  queue : List Outbound
  flags : BitVec 16
  mask : BitVec 16
  log : Option LogEntry
  more : Bool
  dropped : Count
  malformed : Count
  lost : Count
  cursor : Cursor
  staged : List Part
  station : BitVec 6
  group : Fin 16
  cause : RestartCause
deriving DecidableEq, Repr

/-- The station address of the straps: 1..62, or 0 for an unaddressed station (R173). -/
def stationOf (straps : BitVec 6) : BitVec 6 := if straps == 63 then 0 else straps

/-- The cause code of page 0 and of the RESTART snapshot (Formats). -/
def RestartCause.code : RestartCause → Byte
  | .powerOn => 0
  | .resetPin => 1
  | .stationReset => 2

/-- The RESTART notice (flag 0): cause, station, group (Formats, R173). -/
def restartNotice (cause : RestartCause) (station : BitVec 6) (group : Fin 16) : Outbound :=
  .notice station group 0 [cause.code, station.setWidth 8, BitVec.ofNat 8 group.val, 0]

/-- The values of R167 to R173 after power-on or reset pin: the flags are clear and the mask all set, and then RESTART
is posted at the head of the empty queue. -/
def ManagementUnit.initial (cause : RestartCause) (straps : BitVec 6) : ManagementUnit :=
  { queue := [restartNotice cause (stationOf straps) 0], flags := 1, mask := 0xFFFF, log := none, more := false,
    dropped := 0, malformed := 0, lost := 0, cursor := Cursor.start, staged := [], station := stationOf straps,
    group := 0, cause }

end Sys2Proof.Machine
end

