-- ==== Sys2Proof/Machine/State.lean ====
section
/-! DEFINITION. The state of the BZ440: its ten blocks (00_scope), and the queue of commands that wait. -/

namespace Sys2Proof.Machine

/-- The reasons the block can stop with a fault. The spec describes no machine stop, so there is no constructor: no
command faults. -/
inductive Fault where
deriving DecidableEq, Repr

/-- The reasons a command can be refused. -/
inductive Refusal where
  /-- Raised by `exec` alone, for a row of the opcode table that has no meaning yet. Safe: the model stops where the
  block goes on. No row is left so. -/
  | notModelled (mnemonic : String)
deriving DecidableEq, Repr

/-- The state of the block: one field for each of the ten blocks of 00_scope's functional overview, and the commands
that wait, first in, first out (log 1). -/
structure State where
  tb : TimeBase
  bs : BellSequencer
  bo : BellOutput
  za : ZoneArbiter
  au : AnnounceUnit
  cc : ClockUnit
  dc : DrillController
  ci : ContactUnit
  li : LineInterface
  mu : ManagementUnit
  pending : List Instr
deriving DecidableEq, Repr

/-- Every block at its power-on values, over the retained store and the commands that wait (R18, R43, R67, R89, R109,
R123, R155, R156, R158, R174). -/
def State.started (cause : RestartCause) (straps : BitVec 6) (store : Vector Retained 4) (pending : List Instr) : State :=
  { tb := TimeBase.initial, bs := BellSequencer.initial, bo := BellOutput.initial, za := ZoneArbiter.initial,
    au := AnnounceUnit.initial, cc := ClockUnit.initial store, dc := DrillController.initial, ci := ContactUnit.initial,
    li := LineInterface.initial, mu := ManagementUnit.initial cause straps, pending }

/-- The block right after power-on, with straps that read 0 (log 5) and a retained store never written (log 7). -/
def State.reset : State := State.started .powerOn 0 (Vector.replicate 4 Retained.unwritten) []

end Sys2Proof.Machine
end

