-- ==== Sys2Proof/Machine/Ops.lean ====
section
/-! DEFINITION. The named operations every block shares: saturating counts, zone sets, instants, tick intervals,
records by number, and the three blocks the speaker feeds and bell lines run through. -/

namespace Sys2Proof.Machine

/-! ## Counts -/

/-- A 16-bit counter increased by n, saturating at 65535 (00_scope). -/
def satAdd (c : Count) (n : Nat) : Count := BitVec.ofNat 16 (min 65535 (c.toNat + n))

/-- A 16-bit counter increased by one, saturating at 65535 (00_scope). -/
def satInc (c : Count) : Count := satAdd c 1

/-- The bound of elapsed times and of the 24-bit timers (00_scope, R14, R91, R138). -/
def elapsedLimit : Nat := 16777215

/-- A ms timer counted up by one tick, saturating at 16,777,215 (R14, R91). -/
def timerUp (n : Nat) : Nat := min elapsedLimit (n + 1)

/-- A value taken at the nearest limit of its range (R170). -/
def clampTo (lo hi v : Nat) : Nat := max lo (min hi v)

/-! ## Zone sets and group masks -/

/-- Membership of a zone set or group mask: bit n stands for number n (00_scope). -/
def memSet (n : Fin 16) (zs : ZoneSet) : Bool := zs.getLsbD n.val

/-- The set holding one zone. -/
def single (z : Zone) : ZoneSet := BitVec.twoPow 16 z.val

def insertZone (z : Zone) (zs : ZoneSet) : ZoneSet := zs ||| single z

def eraseZone (z : Zone) (zs : ZoneSet) : ZoneSet := zs &&& ~~~(single z)

/-- The zones of the first set that are not in the second. -/
def diffSet (a b : ZoneSet) : ZoneSet := a &&& ~~~b

/-- The zones for which a test holds. -/
def zonesWhere (p : Zone → Bool) : ZoneSet :=
  (List.finRange 16).foldl (fun acc z => if p z then insertZone z acc else acc) 0

/-- The number of zones of a set. -/
def countSet (zs : ZoneSet) : Nat := ((List.finRange 16).filter (fun z => memSet z zs)).length

/-- The zones of a set, taken in ascending number (log 23). -/
def forZones {σ : Type} (zs : ZoneSet) (f : Zone → σ → σ) (s : σ) : σ :=
  (List.finRange 16).foldl (fun s z => if memSet z zs then f z s else s) s

/-- Every slot in ascending number (log 23). -/
def forSlots {σ : Type} (f : SlotId → σ → σ) (s : σ) : σ := (List.finRange 4).foldl (fun s n => f n s) s

/-- Every circuit in ascending number (log 23). -/
def forCircuits {σ : Type} (f : CircuitId → σ → σ) (s : σ) : σ := (List.finRange 4).foldl (fun s k => f k s) s

/-! ## Instants -/

/-- The ms of one day. -/
def dayMs : Nat := 86400000

/-- The signed day distance from day d to day e: the forward distance (e − d) mod 65536 taken into −32768..32767
(00_scope). -/
def dayDistance (d e : BitVec 16) : Int := (e - d).toInt

/-- One instant is later than another (R30). -/
def Instant.later (x y : Instant) : Bool :=
  let dist := dayDistance y.day x.day
  decide (0 < dist) || (dist == 0 && decide (y.ms < x.ms))

/-- The later of two instants. -/
def Instant.latest (x y : Instant) : Instant := if y.later x then y else x

/-- The ms from y to x, negative when y is later (R9, R54). -/
def Instant.since (x y : Instant) : Int :=
  dayDistance y.day x.day * (dayMs : Int) + ((x.ms : Int) - (y.ms : Int))

/-- The interval (lo, hi]: later than lo and not later than hi (R30). -/
def Instant.within (t lo hi : Instant) : Bool := t.later lo && !t.later hi

/-- The instant of a campus time. -/
def CampusTime.instant (t : CampusTime) : Instant := { day := t.day, ms := t.ms }

/-- The instant n ms before, for n of at most one day. -/
def Instant.before (t : Instant) (n : Nat) : Instant :=
  if n ≤ t.ms then { t with ms := t.ms - n } else { day := t.day - 1, ms := t.ms + dayMs - n }

/-- hour, minute, second and second of day (R1). -/
def CampusTime.hour (t : CampusTime) : Nat := t.ms / 3600000
def CampusTime.minute (t : CampusTime) : Nat := t.ms / 60000 % 60
def CampusTime.second (t : CampusTime) : Nat := t.ms / 1000 % 60

/-- Now, or none while the time state is UNSET (R1, R2). -/
def TimeBase.now? (tb : TimeBase) : Option Instant :=
  if tb.state = .unset then none else some tb.now.instant

/-- The ms from one tick count to another: their difference modulo 2^32 (R3). -/
def ticksSince (now since : Tick) : Nat := (now - since).toNat

/-- Whether a tick count has been reached: the difference modulo 2^32 lies in its lower half. -/
def tickReached (now at_ : Tick) : Bool := decide (ticksSince now at_ < 2147483648)

/-! ## The three blocks of the speaker feeds and bell lines

The zone arbiter, the announcement unit's slots and the pattern players answer one another within one step; their
rules are written over these three blocks and the drill gain setting they read. -/

/-- The zone arbiter, the announcement unit, the bell output unit, and the drill gain setting (R71). -/
structure Floor where
  za : ZoneArbiter
  au : AnnounceUnit
  bo : BellOutput
  drillGain : Nat
deriving DecidableEq, Repr

/-- The floor of a state. -/
def State.floor (s : State) : Floor := { za := s.za, au := s.au, bo := s.bo, drillGain := s.dc.drillGain }

/-- The state over another floor; the drill gain setting is the drill controller's and is not written back. -/
def State.setFloor (s : State) (f : Floor) : State := { s with za := f.za, au := f.au, bo := f.bo }

/-- An operation of the floor as one of the state. -/
def State.onFloor (s : State) (f : Floor → Floor) : State := s.setFloor (f s.floor)

def Floor.zone (f : Floor) (z : Zone) : ZoneRec := f.za.zones[z]
def Floor.slot (f : Floor) (n : SlotId) : Slot := f.au.slots[n]
def Floor.player (f : Floor) (z : Zone) : Player := f.bo.players[z]

def Floor.setZone (f : Floor) (z : Zone) (g : ZoneRec → ZoneRec) : Floor :=
  { f with za := { f.za with zones := f.za.zones.set z (g (f.zone z)) } }

def Floor.setSlot (f : Floor) (n : SlotId) (g : Slot → Slot) : Floor :=
  { f with au := { f.au with slots := f.au.slots.set n (g (f.slot n)) } }

def Floor.setPlayer (f : Floor) (z : Zone) (p : Player) : Floor :=
  { f with bo := { f.bo with players := f.bo.players.set z p } }

/-! ## Records of the state -/

def State.zone (s : State) (z : Zone) : ZoneRec := s.za.zones[z]
def State.slot (s : State) (n : SlotId) : Slot := s.au.slots[n]
def State.circuit (s : State) (k : CircuitId) : Circuit := s.cc.circuits[k]
def State.input (s : State) (n : InputId) : Contact := s.ci.inputs[n]

def State.setSlot (s : State) (n : SlotId) (g : Slot → Slot) : State :=
  { s with au := { s.au with slots := s.au.slots.set n (g (s.slot n)) } }

def State.setCircuit (s : State) (k : CircuitId) (g : Circuit → Circuit) : State :=
  { s with cc := { s.cc with circuits := s.cc.circuits.set k (g (s.circuit k)) } }

def State.setInput (s : State) (n : InputId) (g : Contact → Contact) : State :=
  { s with ci := { s.ci with inputs := s.ci.inputs.set n (g (s.input n)) } }

/-- The zones enabled in the zone table (R69). -/
def State.enabledZones (s : State) : ZoneSet := zonesWhere fun z => (s.zone z).enabled

/-- The drill zones setting: the in-drill-zones fields of the 16 records (R69). -/
def State.drillZones (s : State) : ZoneSet := zonesWhere fun z => (s.zone z).inDrill

/-- This station's group is in the mask (00_scope). -/
def State.inGroups (s : State) (mask : GroupMask) : Bool := memSet s.mu.group mask

/-- Operations on one block. -/
def State.onTb (s : State) (f : TimeBase → TimeBase) : State := { s with tb := f s.tb }
def State.onBs (s : State) (f : BellSequencer → BellSequencer) : State := { s with bs := f s.bs }
def State.onAu (s : State) (f : AnnounceUnit → AnnounceUnit) : State := { s with au := f s.au }
def State.onDc (s : State) (f : DrillController → DrillController) : State := { s with dc := f s.dc }
def State.onLi (s : State) (f : LineInterface → LineInterface) : State := { s with li := f s.li }
def State.onMu (s : State) (f : ManagementUnit → ManagementUnit) : State := { s with mu := f s.mu }

end Sys2Proof.Machine
end

