-- ==== Sys2Proof/Machine/Flags.lean ====
section
/-! DEFINITION. Event flags and notices (R167, R168), with the flag numbers of the Formats section. -/

namespace Sys2Proof.Machine

/-- The event flags, numbered as the Formats section lists them. -/
def flagRestart : Fin 16 := 0
def flagDamagedCell : Fin 16 := 1
def flagLineDown : Fin 16 := 2
def flagLineUp : Fin 16 := 3
def flagTimeSet : Fin 16 := 4
def flagTimeStep : Fin 16 := 5
def flagHoldover : Fin 16 := 6
def flagBellSkipped : Fin 16 := 7
def flagBellListFull : Fin 16 := 8
def flagDeferredOverrun : Fin 16 := 9
def flagChannelsFull : Fin 16 := 10
def flagAudioFault : Fin 16 := 11
def flagSessionTimeout : Fin 16 := 12
def flagDrillState : Fin 16 := 13
def flagPanelAlarm : Fin 16 := 14
def flagInputChange : Fin 16 := 15

/-- The entries the outbound queue holds at most (R167). -/
def queueLimit : Nat := 8

/-- An entry joins at the tail of the queue, or is lost and counted when the queue holds 8 (R167). A notice keeps the
station and group of the moment it is queued (log 40). -/
def ManagementUnit.enqueueNotice (mu : ManagementUnit) (flag : Fin 16) (snapshot : List Byte) : ManagementUnit :=
  if mu.queue.length < queueLimit then
    { mu with queue := mu.queue ++ [.notice mu.station mu.group flag snapshot] }
  else
    { mu with lost := satInc mu.lost }

/-- A flag is posted: set by its cause whatever the mask holds, and queued as a notice when it goes from clear to set
while its mask bit is set (R168). -/
def ManagementUnit.post (mu : ManagementUnit) (flag : Fin 16) (snapshot : List Byte) : ManagementUnit :=
  if memSet flag mu.flags then mu
  else
    let raised := { mu with flags := insertZone flag mu.flags }
    if memSet flag mu.mask then raised.enqueueNotice flag snapshot else raised

/-- A flag is posted to the management unit (R168). -/
def State.post (s : State) (flag : Fin 16) (snapshot : List Byte) : State := s.onMu fun mu => mu.post flag snapshot

/-- RESTART is posted, its notice queued at the head of the empty queue whatever the mask holds (R173). -/
def ManagementUnit.restarted (mu : ManagementUnit) (cause : RestartCause) : ManagementUnit :=
  { mu with queue := [restartNotice cause mu.station mu.group], flags := 1, cause }

/-- A number as one byte of a snapshot. -/
def byteNat (n : Nat) : Byte := BitVec.ofNat 8 n

end Sys2Proof.Machine
end

