-- ==== Sys2Proof/Machine/Patterns.lean ====
section
/-! DEFINITION. The bell output unit: pattern timing, starts, phases and cuts (R46 to R50). -/

namespace Sys2Proof.Machine

/-- stroke period = (4 + a) × 2^b × 25 ms (R46). -/
def Pattern.period (p : Pattern) : Nat := (4 + p.a) * 2 ^ p.b * 25

/-- on-time = floor(period / 2) (R46). -/
def Pattern.onTime (p : Pattern) : Nat := p.period / 2

/-- off-time = period − on-time (R46). -/
def Pattern.offTime (p : Pattern) : Nat := p.period - p.onTime

/-- pattern duration = lead ring + stroke count × period (R46). -/
def Pattern.duration (p : Pattern) : Nat := p.lead + p.strokes * p.period

/-- A player that begins a record: LEAD, STROKE_ON or DONE (R48, R49). -/
def Player.begin (record : Pattern) (origin : Origin) : Player :=
  if 0 < record.lead then
    { record, origin, phase := .lead, strokesLeft := record.strokes, timeLeft := record.lead }
  else if 0 < record.strokes then
    { record, origin, phase := .strokeOn, strokesLeft := record.strokes - 1, timeLeft := record.onTime }
  else
    Player.idle

/-- The player after its phase time has run out (R49). -/
def Player.advance (p : Player) : Player :=
  match p.phase with
  | .lead | .strokeOff =>
    if 0 < p.strokesLeft then
      { p with phase := .strokeOn, strokesLeft := p.strokesLeft - 1, timeLeft := p.record.onTime }
    else
      Player.idle
  | .strokeOn => { p with phase := .strokeOff, timeLeft := p.record.offTime }
  | .done => p

/-- The bell line is on in LEAD and STROKE_ON (R48). -/
def Player.lineOn (p : Player) : Bool :=
  match p.phase with
  | .lead | .strokeOn => true
  | .strokeOff | .done => false

/-- A player's phase time has run out (R49). -/
def Player.due (p : Player) : Bool := p.phase != .done && p.timeLeft == 0

/-- One tick of a playing pattern's phase time (R49). -/
def Player.ticked (p : Player) : Player := if p.phase = .done then p else { p with timeLeft := p.timeLeft - 1 }

/-- A bell line that a pattern held goes to NONE; a line held by DRILL stays (R85). -/
def ZoneRec.bellFreed (r : ZoneRec) : ZoneRec :=
  match r.bellOwner with
  | .pattern _ => { r with bellOwner := .none }
  | .none | .drill => r

/-- A cut puts the player in DONE at once, with the bell line off (R50, R85). -/
def Floor.cut (f : Floor) (z : Zone) : Floor := (f.setPlayer z Player.idle).setZone z ZoneRec.bellFreed

/-- A start on one zone: refused by a line held by DRILL, else it replaces the pattern playing there (R48). -/
def Floor.startOn (index : Fin 16) (origin : Origin) (z : Zone) (f : Floor) : Floor :=
  if (f.zone z).bellOwner = .drill then f
  else
    let p := Player.begin f.bo.patterns[index] origin
    (f.setPlayer z p).setZone z fun r =>
      { r with bellOwner := if p.phase = .done then .none else .pattern origin }

/-- A start reaches the bell output unit with a pattern index, a zone set and an origin (R48). -/
def Floor.start (index : Fin 16) (zones : ZoneSet) (origin : Origin) (f : Floor) : Floor :=
  forZones zones (Floor.startOn index origin) f

/-- A playing pattern moves to its next phase; on entry to DONE the owner becomes NONE (R49). -/
def Floor.phaseEnd (z : Zone) (f : Floor) : Floor :=
  if (f.player z).due then
    let p := (f.player z).advance
    let f := f.setPlayer z p
    if p.phase = .done then f.setZone z ZoneRec.bellFreed else f
  else f

end Sys2Proof.Machine
end

