-- ==== Sys2Proof/Machine/Zones.lean ====
section
/-! DEFINITION. The zone arbiter: owners, target gains, ramps, claims, handover, release, scheduled chimes and drill
seizure (R71 to R89), with the reports the announcement unit's slots follow (R99). -/

namespace Sys2Proof.Machine

/-! ## Gain (R71 to R73) -/

/-- The target gain of a zone (R71). -/
def Floor.targetOf (f : Floor) (z : Zone) : Nat :=
  let r := f.zone z
  if r.releasing then 0
  else
    match r.owner with
    | .none => 0
    | .slot n => min (f.slot n).targetGain r.maxGain
    | .chime => min r.defaultGain r.maxGain
    | .drill =>
      match r.drillSource with
      | some .evac => min (if f.drillGain = 0 then r.defaultGain else f.drillGain) r.maxGain
      | some .allClear => min f.au.chimeGain r.maxGain
      | some .silent | none => 0

/-- The ms between two steps of a ramp (R73). -/
def rampPeriod : Nat := 2

/-- A record takes a target: from STEADY a ramp begins when the target differs from the gain; UP is redirected and
keeps its cadence; DOWN_FOR_HANDOVER runs on (R73, log 19). -/
def ZoneRec.aim (r : ZoneRec) (t : Nat) : ZoneRec :=
  match r.ramp with
  | .steady =>
    if t = r.gain then { r with target := t }
    else { r with target := t, ramp := .up, rampTimer := rampPeriod }
  | .up =>
    if t = r.gain then { r with target := t, ramp := .steady, rampTimer := 0 }
    else { r with target := t }
  | .down => { r with target := t }

/-- The target gain is worked out again (R71). -/
def Floor.retarget (z : Zone) (f : Floor) : Floor := f.setZone z fun r => r.aim (f.targetOf z)

/-- The ramp becomes DOWN_FOR_HANDOVER from the current gain; a running ramp keeps its cadence (R73). -/
def ZoneRec.turnDown (r : ZoneRec) : ZoneRec :=
  match r.ramp with
  | .steady => { r with ramp := .down, rampTimer := rampPeriod }
  | .up | .down => { r with ramp := .down }

/-- The ramp reverses to UP toward the owner's target on its running cadence, with no pending claimant (R73, R77). -/
def Floor.turnUp (z : Zone) (f : Floor) : Floor :=
  (f.setZone z fun r => { r with claimant := none, ramp := if r.ramp = .down then .up else r.ramp }).retarget z

/-! ## Reports to the announcement unit (R99) -/

/-- A bound slot of higher rank than a freed one moves down by one (R94). -/
def Slot.rankDown (freed : Nat) (s : Slot) : Slot :=
  if freed ≠ 0 ∧ freed < s.openOrder then { s with openOrder := s.openOrder - 1 } else s

/-- A slot becomes FREE and its open order is given up (R94, R104). -/
def Floor.freeSlot (n : SlotId) (f : Floor) : Floor :=
  let order := (f.slot n).openOrder
  forSlots (fun m f => f.setSlot m (Slot.rankDown order)) (f.setSlot n fun _ => Slot.free)

/-- A slot whose drain is complete becomes FREE when it owns no zone (R104). -/
def Floor.maybeFree (n : SlotId) (f : Floor) : Floor :=
  if (f.slot n).state = .draining ∧ (f.slot n).playout = false ∧ (f.slot n).granted = 0 then f.freeSlot n else f

/-- The slot is told its release of z is complete: z leaves both sets (R79, R99). -/
def Floor.tellReleased (n : SlotId) (z : Zone) (f : Floor) : Floor :=
  (f.setSlot n fun s =>
    { s with requested := eraseZone z s.requested, granted := eraseZone z s.granted }).maybeFree n

/-- The slot is told it no longer holds z: z stays in its requested set (R99). -/
def Floor.tellLost (n : SlotId) (z : Zone) (f : Floor) : Floor :=
  f.setSlot n fun s => { s with granted := eraseZone z s.granted }

/-- The owner of z is told it goes: a slot that was releasing z has completed its release, any other slot has lost z
(R76, R82). -/
def Floor.tellOwnerGone (z : Zone) (f : Floor) : Floor :=
  match (f.zone z).owner with
  | .slot n => if (f.zone z).releasing then f.tellReleased n z else f.tellLost n z
  | .none | .chime | .drill => f

/-! ## Waiting claimants -/

/-- The priority of a pending claimant; a scheduled chime claims at 3 (R80). -/
def Floor.claimantPriority (f : Floor) : Claimant → Nat
  | .slot n => (f.slot n).priority
  | .chime => 3

/-- An owner class as a number; yielding 6 compares as 6 (R71). -/
def OwnerClass.number : OwnerClass → Nat
  | .none => 0
  | .rank n => n
  | .yielding => 6

/-- A slot in CHIME or LIVE is a claimant (R91). -/
def Slot.claims (s : Slot) : Bool :=
  match s.state with
  | .chime | .live => true
  | .free | .draining => false

/-- A slot waits on a zone of its requested set that it does not own (R74, R91). -/
def Floor.waits (f : Floor) (z : Zone) (n : SlotId) : Bool :=
  (f.slot n).claims && memSet z (f.slot n).requested && (f.zone z).owner != .slot n

/-- Between two waiting claimants: the higher priority, and at a tie the earlier open order (R77, R79). -/
def Floor.better (f : Floor) (a b : SlotId) : Bool :=
  decide ((f.slot b).priority < (f.slot a).priority) ||
    ((f.slot a).priority == (f.slot b).priority && decide ((f.slot a).openOrder < (f.slot b).openOrder))

/-- The best waiting claimant among those that pass a test. -/
def Floor.bestWhere (f : Floor) (p : SlotId → Bool) : Option SlotId :=
  (List.finRange 4).foldl
    (fun best n =>
      if p n then
        match best with
        | none => some n
        | some b => if f.better n b then some n else some b
      else best) none

/-- The best waiting claimant of a zone (R79). -/
def Floor.bestWaiting (f : Floor) (z : Zone) : Option SlotId := f.bestWhere (f.waits z)

/-! ## Handover and release -/

/-- The length of a scheduled chime in ms of tick (R80). -/
def chimeLength : Tick := 1000

/-- The slot becomes owner of z from gain 0, with its own class, and the gain ramps UP (R74, R76, R79). -/
def Floor.grant (n : SlotId) (z : Zone) (f : Floor) : Floor :=
  ((f.setZone z fun r =>
      { r with owner := .slot n, cls := .rank (f.slot n).priority, releasing := false, claimant := none,
               chimeEnd := none, chimeClaimed := none, drillSource := none, gain := 0, ramp := .steady,
               rampTimer := 0 }).setSlot n
    fun s => { s with granted := insertZone z s.granted }).retarget z

/-- The scheduled chime becomes owner of z from gain 0, class 3, until the chime end its claim set; that claim was 1.0 s
before its end (R76, R80). -/
def Floor.grantChime (z : Zone) (f : Floor) : Floor :=
  (f.setZone z fun r =>
    { r with owner := .chime, cls := .rank 3, releasing := false, claimant := none,
             chimeClaimed := r.chimeEnd.map (· - chimeLength), drillSource := none, gain := 0, ramp := .steady,
             rampTimer := 0 }).retarget z

/-- The pending claimant becomes owner (R76). -/
def Floor.install (c : Claimant) (z : Zone) (f : Floor) : Floor :=
  match c with
  | .slot n => f.grant n z
  | .chime => f.grantChime z

/-- The owner becomes NONE at gain 0 (R70, R79). -/
def ZoneRec.disowned (r : ZoneRec) : ZoneRec :=
  { r with owner := .none, cls := .none, releasing := false, claimant := none, chimeEnd := none, chimeClaimed := none,
           drillSource := none, gain := 0, target := 0, ramp := .steady, rampTimer := 0 }

/-- The gain has reached 0 with the releasing mark set: the releasing owner is told, and the zone goes to the pending
claimant, to the best waiting claimant, or to NONE (R79). -/
def Floor.completeRelease (z : Zone) (f : Floor) : Floor :=
  let f := f.tellOwnerGone z
  match (f.zone z).claimant with
  | some c => f.install c z
  | none =>
    match f.bestWaiting z with
    | some n => f.grant n z
    | none => f.setZone z ZoneRec.disowned

/-- The gain has reached 0 with a pending claimant and no releasing mark: the handover completes (R76). -/
def Floor.completeHandover (c : Claimant) (z : Zone) (f : Floor) : Floor := (f.tellOwnerGone z).install c z

/-- The owner releases z: target 0 and DOWN_FOR_HANDOVER, or completion in the same moment at gain 0 (R79). -/
def Floor.release (z : Zone) (f : Floor) : Floor :=
  if (f.zone z).owner = .none ∨ (f.zone z).releasing = true then f
  else
    let f := f.setZone z fun r => { r.turnDown with releasing := true, target := 0 }
    if (f.zone z).gain = 0 then f.completeRelease z else f

/-- The pending claimant leaves z; a scheduled chime's end is cleared with it (R75, R77), also where the owner is an older
scheduled chime that is releasing z (log 35). -/
def ZoneRec.withoutClaimant (r : ZoneRec) : ZoneRec :=
  { r with claimant := none, chimeEnd := if r.claimant = some .chime then none else r.chimeEnd }

/-- The pending claimant of z is replaced by a slot (R75). -/
def ZoneRec.replaceClaimant (n : SlotId) (r : ZoneRec) : ZoneRec :=
  { r.withoutClaimant with claimant := some (.slot n) }

/-- The pending claimant withdraws: the arbiter chooses again among the owner, provided its releasing mark is clear, and
the waiting claimants; the owner wins a tie (R77). -/
def Floor.withdraw (z : Zone) (f : Floor) : Floor :=
  let f := f.setZone z ZoneRec.withoutClaimant
  let r := f.zone z
  match f.bestWaiting z with
  | none => if r.releasing then f else f.turnUp z
  | some n =>
    if r.releasing = true ∨ r.cls.number < (f.slot n).priority then f.setZone z (ZoneRec.replaceClaimant n)
    else f.turnUp z

/-- A priority-6 claim takes a zone held in yielding 6 at once (R75, R76). -/
def Floor.takeYielded (n : SlotId) (z : Zone) (f : Floor) : Floor := f.completeHandover (.slot n) z

/-- The class of z's owner has fallen: the zone is examined at once (R78, log 20). -/
def Floor.classFell (z : Zone) (f : Floor) : Floor :=
  let r := f.zone z
  match r.cls with
  | .yielding =>
    match f.bestWhere fun n => f.waits z n && (f.slot n).priority == 6 with
    | some n => f.takeYielded n z
    | none => f
  | .none | .rank _ =>
    match f.bestWaiting z with
    | none => f
    | some n =>
      if r.cls.number < (f.slot n).priority then
        match r.claimant with
        | some c =>
          if f.claimantPriority c < (f.slot n).priority then f.setZone z (ZoneRec.replaceClaimant n) else f
        | none => f.setZone z fun r => { r.turnDown with claimant := some (.slot n) }
      else f

/-- The owner class of a zone the slot owns takes the slot's priority, and R78 applies if it fell (R74, R95). -/
def Floor.setClass (n : SlotId) (z : Zone) (f : Floor) : Floor :=
  let fell := decide ((f.slot n).priority < (f.zone z).cls.number)
  let f := f.setZone z fun r => { r with cls := .rank (f.slot n).priority }
  if fell then f.classFell z else f

/-! ## Claims -/

/-- A slot that claims again a zone it is still releasing cancels its release (R79). -/
def Floor.cancelRelease (z : Zone) (f : Floor) : Floor :=
  let f := f.setZone z fun r => { r with releasing := false }
  if (f.zone z).claimant = none then f.turnUp z else f.retarget z

/-- A claim on z by session slot n (R74, R75). One that meets a zone the drill is releasing becomes its pending claimant, by
R75's case of a releasing mark and not by R74's row of an owner DRILL in class 7 (log 41). -/
def Floor.claim (n : SlotId) (z : Zone) (f : Floor) : Floor :=
  let r := f.zone z
  let q := (f.slot n).priority
  if r.enabled = false then f
  else if r.owner = .slot n then
    if r.releasing then (f.cancelRelease z).setClass n z else f.setClass n z
  else if r.claimant = some (.slot n) then f
  else if r.ramp = .down then
    match r.claimant with
    | some c => if f.claimantPriority c < q then f.setZone z (ZoneRec.replaceClaimant n) else f
    | none => if r.releasing then f.setZone z (ZoneRec.replaceClaimant n) else f
  else if r.owner = .none then f.grant n z
  else
    match r.cls with
    | .yielding => if q = 6 then f.takeYielded n z else f
    | .none | .rank _ =>
      if r.cls.number < q then f.setZone z fun r => { r.turnDown with claimant := some (.slot n) } else f

/-! ## Scheduled chimes (R80) -/

/-- A scheduled chime's claim on one zone, with its chime end (R80). -/
def Floor.chimeClaimOn (stop : Tick) (z : Zone) (f : Floor) : Floor :=
  let r := f.zone z
  let pend := f.setZone z fun r => { r with claimant := some .chime, chimeEnd := some stop }
  if r.ramp = .down then
    match r.claimant with
    | some (.slot n) => if (f.slot n).priority ≤ 2 then pend else f
    | some .chime => f
    | none => if r.releasing then pend else f
  else
    match r.owner with
    | .none => (f.setZone z fun r => { r with chimeEnd := some stop }).grantChime z
    | .slot _ =>
      if r.cls.number ≤ 2 then
        f.setZone z fun r => { r.turnDown with claimant := some .chime, chimeEnd := some stop }
      else f
    | .chime | .drill => f

/-- A scheduled chime claims its zone set at priority 3 for 1.0 s from the tick count now (R80). -/
def Floor.chimeClaim (now : Tick) (zones : ZoneSet) (f : Floor) : Floor :=
  forZones zones (Floor.chimeClaimOn (now + chimeLength)) f

/-- A scheduled chime's hold on z has reached its chime end: it owns z without releasing it, or is pending on it. -/
def ZoneRec.chimeDue (now : Tick) (r : ZoneRec) : Bool :=
  ((r.owner == .chime && !r.releasing) || r.claimant == some .chime) &&
    (match r.chimeEnd with
     | some stop => tickReached now stop
     | none => false)

/-- The chime end on one zone: a withdrawal where the chime is pending, a release where it owns (R77, R79, R80). -/
def Floor.chimeEndOn (now : Tick) (z : Zone) (f : Floor) : Floor :=
  let r := f.zone z
  if r.chimeDue now then
    if r.claimant = some .chime then f.withdraw z else f.release z
  else f

/-! ## Drill seizure (R81 to R84) -/

/-- The speaker mode of a report (R81). -/
inductive SpeakerMode where
  | sound | yield | chime | mute
deriving DecidableEq, Repr

/-- The bell line mode of a report (R81). -/
inductive BellMode where
  | drive | hold | free
deriving DecidableEq, Repr

/-- The modes the drill controller reports in a state; IDLE reports an empty set (R81). -/
def DrillState.modes : DrillState → Option (SpeakerMode × BellMode)
  | .idle => none
  | .sounding => some (.sound, .drive)
  | .silenced => some (.yield, .hold)
  | .clearing => some (.chime, .free)
  | .panel => some (.mute, .hold)

/-- The class of a zone owned by DRILL under a mode (R83). -/
def SpeakerMode.cls : SpeakerMode → OwnerClass
  | .yield => .yielding
  | .sound | .chime | .mute => .rank 7

/-- The drill source under a mode (R83). -/
def SpeakerMode.source : SpeakerMode → DrillSource
  | .sound => .evac
  | .chime => .allClear
  | .yield | .mute => .silent

/-- A zone owned by DRILL takes its speaker settings from the mode: gain 0 at once, then UP to a non-zero target; under
YIELD, R78 applies (R82, R83). -/
def Floor.applyMode (m : SpeakerMode) (z : Zone) (f : Floor) : Floor :=
  let f := (f.setZone z fun r =>
    { r with owner := .drill, cls := m.cls, releasing := false, claimant := none, chimeEnd := none,
             chimeClaimed := none, drillSource := some m.source, gain := 0, ramp := .steady, rampTimer := 0 }).retarget z
  if m = .yield then f.classFell z else f

/-- The bell line of a seized zone under a mode (R83). -/
def Floor.applyBellMode (b : BellMode) (z : Zone) (f : Floor) : Floor :=
  match b with
  | .drive | .hold => (f.cut z).setZone z fun r => { r with bellOwner := .drill }
  | .free => f.setZone z fun r => { r with bellOwner := .none }

/-- A zone that enters the seized set is seized at once (R82). -/
def Floor.seize (m : SpeakerMode) (b : BellMode) (z : Zone) (f : Floor) : Floor :=
  (((f.tellOwnerGone z).cut z).applyBellMode b z).applyMode m z

/-- A zone that stays in the seized set takes the new modes (R83). -/
def Floor.keepSeized (changed : Bool) (m : SpeakerMode) (b : BellMode) (z : Zone) (f : Floor) : Floor :=
  if (f.zone z).owner = .drill then (f.applyBellMode b z).applyMode m z
  else if changed then f.seize m b z
  else f.applyBellMode b z

/-- A zone that leaves the seized set is released by the drill (R84). -/
def Floor.drillRelease (z : Zone) (f : Floor) : Floor :=
  let f := f.setZone z fun r =>
    { r with drillSource := none, bellOwner := if r.bellOwner = .drill then .none else r.bellOwner }
  if (f.zone z).owner = .drill then f.release z else f

/-- A report of the drill controller, compared with the previous one (R81): `before` and `after` are the drill states
that give the modes. -/
def Floor.report (before after : DrillState) (old new : ZoneSet) (f : Floor) : Floor :=
  let f := forZones (diffSet old new) Floor.drillRelease f
  match after.modes with
  | none => f
  | some (m, b) =>
    let changed := before.modes.map Prod.fst != some m
    let f := forZones (old &&& new) (Floor.keepSeized changed m b) f
    forZones (diffSet new old) (Floor.seize m b) f

/-! ## Configuration writes and resets (R86 to R89) -/

/-- The zone is disabled at once: owner NONE at gain 0, its slots told, and its pattern cut (R86). -/
def Floor.disable (z : Zone) (f : Floor) : Floor :=
  let f := match (f.zone z).owner with
    | .slot n => f.tellReleased n z
    | .none | .chime | .drill => f
  let f := forSlots (fun n f => f.setSlot n fun s =>
    { s with requested := eraseZone z s.requested, granted := eraseZone z s.granted }) f
  ((f.cut z).setZone z ZoneRec.disowned).setZone z fun r => { r with bellOwner := .none }

/-- Every zone, in ascending number. -/
def allZones : ZoneSet := 0xFFFF

/-- UNIT_RESET of the zones unit, first three steps: every live part cleared, every pattern cut, every slot told it
holds no zone, and a releasing slot that its release is complete (R88). -/
def Floor.clearLive (f : Floor) : Floor :=
  forZones allZones (fun z f => (f.tellOwnerGone z).setZone z ZoneRec.cleared |>.setPlayer z Player.idle) f

/-- UNIT_RESET of the zones unit: the live part is built again from the drill's last report and the waiting claims
(R88). -/
def Floor.rebuild (state : DrillState) (seized : ZoneSet) (f : Floor) : Floor :=
  let f := f.clearLive
  let f := match state.modes with
    | none => f
    | some (m, b) => forZones seized (Floor.seize m b) f
  forZones (diffSet allZones seized)
    (fun z f =>
      if (f.zone z).enabled then
        match f.bestWaiting z with
        | some n => f.grant n z
        | none => f
      else f) f

/-! ## The ramp -/

/-- A ramp's 2 ms have passed (R73). -/
def ZoneRec.rampDue (r : ZoneRec) : Bool := r.ramp != .steady && r.rampTimer == 0

/-- One code toward a target. -/
def stepToward (g t : Nat) : Nat := if g < t then g + 1 else if t < g then g - 1 else g

/-- One 2 ms step of a running ramp (R73), ending by R76 or R79 at 0. -/
def Floor.rampStep (z : Zone) (f : Floor) : Floor :=
  let r := f.zone z
  if r.rampDue then
    match r.ramp with
    | .steady => f
    | .up =>
      let g := stepToward r.gain r.target
      if g = r.target then f.setZone z fun r => { r with gain := g, ramp := .steady, rampTimer := 0 }
      else f.setZone z fun r => { r with gain := g, rampTimer := rampPeriod }
    | .down =>
      let f := f.setZone z fun r => { r with gain := r.gain - 1, rampTimer := rampPeriod }
      if (f.zone z).gain = 0 then
        if r.releasing then f.completeRelease z
        else
          match r.claimant with
          | some c => f.completeHandover c z
          | none => f
      else f
  else f

/-- One tick of a running ramp's cadence. -/
def ZoneRec.ticked (r : ZoneRec) : ZoneRec :=
  if r.ramp = .steady then r else { r with rampTimer := r.rampTimer - 1 }

end Sys2Proof.Machine
end

