-- ==== Sys2Proof/Machine/Announce.lean ====
section
/-! DEFINITION. The announcement unit: sessions, audio, playout, timeouts and the announce reset (R92 to R109). -/

namespace Sys2Proof.Machine

/-! ## Slots -/

/-- The slot bound to a line channel (R91: no two bound slots share one). -/
def AnnounceUnit.slotOf (au : AnnounceUnit) (channel : Byte) : Option SlotId :=
  (List.finRange 4).find? fun n => au.slots[n].channel == some channel

/-- The lowest-numbered FREE slot (R93). -/
def AnnounceUnit.freeSlot? (au : AnnounceUnit) : Option SlotId :=
  (List.finRange 4).find? fun n => au.slots[n].state == .free

/-- The number of bound slots (R91, R94). -/
def AnnounceUnit.boundCount (au : AnnounceUnit) : Nat :=
  ((List.finRange 4).filter fun n => au.slots[n].channel.isSome).length

/-- The ms between two takes (R103). -/
def takePeriod : Nat := 2

/-- The oldest cell is taken from the buffer and begins to play (R103). -/
def Slot.take (s : Slot) : Slot :=
  match s.buffer with
  | [] => s
  | c :: rest => { s with buffer := rest, playing := some c, playout := true, takeTimer := takePeriod }

/-- A take falls due while the playout flag is set (R103). -/
def Slot.takeDue (s : Slot) : Bool := s.playout && s.takeTimer == 0

/-- One tick of a slot: the playout cadence, and in LIVE the last-audio timer (R103, R105). -/
def Slot.ticked (s : Slot) : Slot :=
  { s with takeTimer := if s.playout then s.takeTimer - 1 else s.takeTimer,
           audioTimer := if s.state = .live then timerUp s.audioTimer else s.audioTimer }

/-! ## Draining (R98, R104) -/

/-- The slot withdraws from z where it is the pending claimant (R77). -/
def Floor.withdrawSlot (n : SlotId) (z : Zone) (f : Floor) : Floor :=
  if (f.zone z).claimant = some (.slot n) then f.withdraw z else f

/-- Draining is complete: the playout flag clears, every granted zone is released, and the slot becomes FREE when it
owns none (R104). -/
def Floor.drainComplete (n : SlotId) (f : Floor) : Floor :=
  let f := f.setSlot n fun s => { s with playout := false, playing := none, takeTimer := 0 }
  (forZones (f.slot n).granted Floor.release f).maybeFree n

/-- Entry to DRAINING by CLOSE or timeout (R98, log 21); the stopped last-audio timer stands at 0 (log 37). -/
def Floor.enterDraining (n : SlotId) (f : Floor) : Floor :=
  let f := f.setSlot n fun s =>
    { s with state := .draining, chimeStart := none, audioTimer := 0, requested := s.granted }
  let f := { f with au := { f.au with closes := satInc f.au.closes } }
  let f := forZones allZones (Floor.withdrawSlot n) f
  if (f.slot n).buffer = [] then f.drainComplete n
  else if (f.slot n).playout then f
  else f.setSlot n Slot.take

/-! ## Opening (R93 to R96) -/

/-- The clamped priority of an OPEN: code 0 is taken as 1 and code 7 as 6 (R92). -/
def priorityOf (code : BitVec 3) : Nat := clampTo 1 6 code.toNat

/-- The clamped target gain of an OPEN (R92). -/
def gainOf (code : Byte) : Nat := min 80 code.toNat

/-- A FREE slot is filled and claims its zones (R93). -/
def Floor.openNew (now : Tick) (c : SessionCell) (zones : ZoneSet) (n : SlotId) (f : Floor) : Floor :=
  let order := f.au.boundCount + 1
  let f := f.setSlot n fun _ =>
    { Slot.free with
      state := if c.chime then .chime else .live, channel := some c.channel, priority := priorityOf c.priority,
      requested := zones, targetGain := gainOf c.gain, chimeFlag := c.chime,
      chimeStart := if c.chime then some now else none, openOrder := order }
  let f := { f with au := { f.au with opened := satInc f.au.opened } }
  forZones zones (Floor.claim n) f

/-- Re-open step 1 on a zone that leaves the set: released where owned, withdrawn where pending (R95). -/
def Floor.dropZone (n : SlotId) (z : Zone) (f : Floor) : Floor :=
  if (f.zone z).owner = .slot n then f.release z
  else
    (f.setSlot n fun s => { s with requested := eraseZone z s.requested }).withdrawSlot n z

/-- Re-open step 3 on one zone: the new priority where the slot owns, pends or waits (R95). -/
def Floor.reprioritise (n : SlotId) (old : Nat) (z : Zone) (f : Floor) : Floor :=
  let new := (f.slot n).priority
  if (f.zone z).owner = .slot n then f.setClass n z
  else if new < old then f.withdrawSlot n z
  else if old < new ∧ memSet z (f.slot n).requested = true then f.claim n z
  else f

/-- The new requested set, gain and priority of a re-open, in the order of R95; `reclaim` is the set whose zones step 4
claims where the slot does not own them: the new zones of R95, or every zone of the new set by R96. -/
def Floor.takeReopen (c : SessionCell) (zones reclaim : ZoneSet) (n : SlotId) (f : Floor) : Floor :=
  let old := (f.slot n).requested
  let f := forZones (diffSet old zones) (Floor.dropZone n) f
  let f := f.setSlot n fun s => { s with requested := s.requested ||| zones, targetGain := gainOf c.gain }
  let f := forZones (f.slot n).granted Floor.retarget f
  let before := (f.slot n).priority
  let f := f.setSlot n fun s => { s with priority := priorityOf c.priority }
  let f := forZones allZones (Floor.reprioritise n before) f
  forZones zones
    (fun z f =>
      if memSet z reclaim || ((f.zone z).owner == .slot n && (f.zone z).releasing) then f.claim n z else f) f

/-- An OPEN on a slot in CHIME or LIVE re-opens the session (R95). -/
def Floor.reopen (c : SessionCell) (zones : ZoneSet) (n : SlotId) (f : Floor) : Floor :=
  let f := { f with au := { f.au with reopened := satInc f.au.reopened } }
  let f := f.setSlot n fun s => { s with audioTimer := if s.state = .live then 0 else s.audioTimer }
  f.takeReopen c zones (diffSet zones (f.slot n).requested) n

/-- An OPEN on a slot in DRAINING returns it to LIVE (R96). -/
def Floor.reopenDraining (c : SessionCell) (zones : ZoneSet) (n : SlotId) (f : Floor) : Floor :=
  let f := { f with au := { f.au with reopened := satInc f.au.reopened } }
  let f := f.setSlot n fun s => { s with state := .live, audioTimer := 0 }
  f.takeReopen c zones (diffSet zones (f.slot n).granted) n

/-- An OPEN that passes R92: a re-open, a new session, or a refusal for want of a FREE slot (R93, R95, R96). -/
def State.sessionOpenCell (c : SessionCell) (s : State) : State :=
  let zones := c.zones &&& s.enabledZones
  match s.au.slotOf c.channel with
  | some n =>
    if (s.slot n).state = .draining then s.onFloor (Floor.reopenDraining c zones n)
    else s.onFloor (Floor.reopen c zones n)
  | none =>
    match s.au.freeSlot? with
    | some n => s.onFloor (Floor.openNew s.tb.tick c zones n)
    | none =>
      (s.onAu fun au => { au with channelsFull := satInc au.channelsFull }).post flagChannelsFull
        ([c.channel, byteNat (priorityOf c.priority)] ++ be16 c.zones)

/-- A CLOSE that passes R92 (R98). -/
def State.sessionCloseCell (c : SessionCell) (s : State) : State :=
  match s.au.slotOf c.channel with
  | some n => if (s.slot n).claims then s.onFloor (Floor.enterDraining n) else s
  | none => s

/-- A good SESSION cell at the announcement unit: the group test, the form test, and the open or the close (R92). -/
def State.takeSession (code : BitVec 4) (c : SessionCell) (s : State) : State :=
  if s.inGroups c.groups = false then s
  else if 7 < c.channel.toNat ∨ (code ≠ 1 ∧ code ≠ 2) then s.onAu fun au => { au with malformed := satInc au.malformed }
  else if code = 1 then s.sessionOpenCell c
  else s.sessionCloseCell c

/-! ## The session chime (R97) -/

/-- The session chime has ended (R97). -/
def Slot.chimeEnded (now : Tick) (s : Slot) : Bool :=
  s.state == .chime &&
    (match s.chimeStart with
     | some start => decide (1000 ≤ ticksSince now start)
     | none => false)

/-- The slot enters LIVE with its buffer empty, its playout flag clear and its timer at 0 (R97). -/
def Slot.enterLive (s : Slot) : Slot :=
  { s with state := .live, chimeStart := none, buffer := [], playout := false, audioTimer := 0 }

/-! ## Audio (R100 to R103) -/

/-- The kinds of AUDIO_FAULT (Formats). -/
inductive AudioFault where
  | overrun | underrun | lost
deriving DecidableEq, Repr

def AudioFault.code : AudioFault → Byte
  | .overrun => 0
  | .underrun => 1
  | .lost => 2

/-- AUDIO_FAULT is posted with slot, channel, kind and count (R107, Formats). -/
def State.audioFault (n : SlotId) (kind : AudioFault) (count : Nat) (s : State) : State :=
  s.post flagAudioFault [byteNat n.val, (s.slot n).channel.getD 255, kind.code, byteNat (min 255 count)]

/-- The cells a jitter buffer holds at most (R91). -/
def bufferLimit : Nat := 16

/-- An arriving cell is offered to the buffer: appended as the newest, or dropped as an overrun at 16 cells (R102). -/
def State.offerCell (n : SlotId) (c : Samples) (s : State) : State :=
  if (s.slot n).buffer.length < bufferLimit then
    (s.setSlot n fun t => { t with buffer := t.buffer ++ [c], lastCell := some c }).onAu
      fun au => { au with accepted := satInc au.accepted }
  else
    (s.onAu fun au => { au with overrun := satInc au.overrun }).audioFault n .overrun 1

/-- The copies placed for a gap of 1 or 2, the arriving cell given its place first (R101). -/
def Slot.copiesFor (t : Slot) (gap : Nat) : Nat :=
  if gap = 1 ∨ gap = 2 then
    match t.lastCell with
    | some _ => min gap (bufferLimit - t.buffer.length - 1)
    | none => 0
  else 0

/-- Copies of the last cell are placed and counted as concealed (R101, R102). -/
def State.placeCopies (n : SlotId) (k : Nat) (s : State) : State :=
  (s.setSlot n fun t =>
      { t with buffer := t.buffer ++ List.replicate k (t.lastCell.getD (Vector.replicate 16 0)) }).onAu
    fun au => { au with concealed := satAdd au.concealed k }

/-- Missing cells not concealed are counted as audio lost, and AUDIO_FAULT is posted (R101). -/
def State.loseCells (n : SlotId) (k : Nat) (s : State) : State :=
  if k = 0 then s else (s.onAu fun au => { au with lost := satAdd au.lost k }).audioFault n .lost k

/-- With the flag clear and 4 or more cells buffered, playout begins (R103). -/
def Slot.prefill (t : Slot) : Slot := if t.playout = false ∧ 4 ≤ t.buffer.length then t.take else t

/-- A cell taken in LIVE is tested against the expected sequence, and offered unless stale (R101). -/
def State.audioLive (n : SlotId) (c : AudioCell) (s : State) : State :=
  let s := s.setSlot n fun t => { t with audioTimer := 0 }
  let gap := match (s.slot n).expected with
    | some e => (c.sequence - e).toNat
    | none => 0
  if 128 ≤ gap then s.onAu fun au => { au with stale := satInc au.stale }
  else
    let copies := (s.slot n).copiesFor gap
    let s := (((s.placeCopies n copies).loseCells n (gap - copies)).offerCell n c.samples)
    s.setSlot n fun t => { t with expected := some (c.sequence + 1) }.prefill

/-- A good AUDIO cell at the announcement unit (R100). -/
def State.takeAudio (c : AudioCell) (s : State) : State :=
  match s.au.slotOf (c.channel.setWidth 8) with
  | none => s.onAu fun au => { au with unbound := satInc au.unbound }
  | some n =>
    match (s.slot n).state with
    | .live => s.audioLive n c
    | .chime | .draining | .free => s.onAu fun au => { au with discarded := satInc au.discarded }

/-- A take falls due: the oldest cell plays on, LIVE underruns, or the drain is complete (R103, R104). -/
def State.playoutDue (n : SlotId) (s : State) : State :=
  match (s.slot n).buffer with
  | _ :: _ => s.setSlot n Slot.take
  | [] =>
    if (s.slot n).state = .draining then s.onFloor (Floor.drainComplete n)
    else
      ((s.setSlot n fun t => { t with playout := false, playing := none, takeTimer := 0 }).onAu
        fun au => { au with underrun := satInc au.underrun }).audioFault n .underrun 1

/-! ## Session timeout (R105) -/

/-- The last-audio timer of a slot in LIVE has reached the session timeout (R105). -/
def AnnounceUnit.timeoutDue (au : AnnounceUnit) (n : SlotId) : Bool :=
  au.slots[n].state == .live && decide (au.sessionTimeout * 1000 ≤ au.slots[n].audioTimer)

/-- SESSION_TIMEOUT's snapshot: slot with bit 7 set when the expected sequence is absent, channel, priority and expected
sequence (R105, Formats). -/
def Slot.timeoutSnapshot (n : SlotId) (t : Slot) : List Byte :=
  [byteNat n.val ||| (if t.expected = none then 0x80 else 0), t.channel.getD 255, byteNat t.priority,
   t.expected.getD 255]

/-- A slot times out: closed as a CLOSE closes it, counted and posted (R105). -/
def State.timeoutSlot (n : SlotId) (s : State) : State :=
  let snapshot := (s.slot n).timeoutSnapshot n
  ((s.onFloor (Floor.enterDraining n)).onAu fun au => { au with timedOut := satInc au.timedOut }).post
    flagSessionTimeout snapshot

/-! ## The announce reset (R109) -/

/-- The first part of the announce reset on one slot: chime cut, buffer emptied, binding and open order given up, the
slot in DRAINING keeping only the zones it owns (R109); the stopped last-audio timer stands at 0 (log 37). -/
def Slot.unbound (t : Slot) : Slot :=
  if t.state = .free then t
  else
    { t with state := .draining, channel := none, chimeStart := none, openOrder := 0, buffer := [], playout := false,
             playing := none, takeTimer := 0, audioTimer := 0, requested := t.granted }

/-- A pending claim of any slot is withdrawn from z (R109). -/
def Floor.withdrawAnySlot (z : Zone) (f : Floor) : Floor :=
  match (f.zone z).claimant with
  | some (.slot _) => f.withdraw z
  | some .chime | none => f

/-- A zone owned by a slot is released (R109). -/
def Floor.releaseSlotZone (z : Zone) (f : Floor) : Floor :=
  match (f.zone z).owner with
  | .slot _ => f.release z
  | .none | .chime | .drill => f

/-- UNIT_RESET of the announce unit ends every session at once (R109, log 22). -/
def Floor.announceReset (f : Floor) : Floor :=
  let f := forSlots (fun n f => f.setSlot n Slot.unbound) f
  let f := forZones allZones Floor.withdrawAnySlot f
  let f := forZones allZones Floor.releaseSlotZone f
  forSlots Floor.maybeFree f

end Sys2Proof.Machine
end

