-- ==== Sys2Proof/Machine/Bells.lean ====
section
/-! DEFINITION. The bell sequencer's commanded bells, the deferred queue and replay (R51 to R67). -/

namespace Sys2Proof.Machine

/-! ## Deferral (R34, R59) -/

/-- A field of the OPEN drill record changes (R149). -/
def DrillController.editOpen (dc : DrillController) (g : DrillRecord → DrillRecord) : DrillController :=
  match dc.openRecord with
  | some i => { dc with ring := dc.ring.modify i g }
  | none => dc

/-- A deferral reported by the bell sequencer counts in the OPEN record, or in PANEL in the tallies (R149). -/
def DrillController.countDeferral (stored : Bool) (dc : DrillController) : DrillController :=
  if dc.state = .panel then
    if stored then { dc with panelDeferred := satInc dc.panelDeferred } else { dc with panelLost := satInc dc.panelLost }
  else
    dc.editOpen fun r => if stored then { r with deferred := satInc r.deferred } else { r with lost := satInc r.lost }

def Origin.code : Origin → Byte
  | .plan => 0
  | .line => 1
  | .input => 2

/-- Pattern 0..15, or 16 for CHIME (Formats, flag 9). -/
def Sound.code : Sound → Byte
  | .pattern n => byteNat n.val
  | .chime => 16

/-- A deferral reaches the queue: appended, appended as the overrun marker, or lost while the marker stands (R59). -/
def State.defer (e : Deferred) (s : State) : State :=
  if s.bs.marker then
    (s.onBs fun bs => { bs with deferredLost := satInc bs.deferredLost }).onDc (DrillController.countDeferral false)
  else
    let stored := (s.onBs fun bs => { bs with deferred := bs.deferred ++ [e] }).onDc (DrillController.countDeferral true)
    if s.bs.deferred.length < 15 then stored
    else
      (stored.onBs fun bs => { bs with marker := true }).post flagDeferredOverrun
        ([e.origin.code, e.sound.code] ++ be16 e.zones)

/-! ## Replay (R60 to R64) -/

/-- A bell or chime started outside replay restarts a running spacing timer for the full spacing (R64). -/
def BellSequencer.heardBell (bs : BellSequencer) : BellSequencer :=
  if bs.replay = .running then { bs with spacing := bs.replaySpacing * 1000 } else bs

/-- Replay is IDLE with its timer stopped (R60, R64). -/
def BellSequencer.stopReplay (bs : BellSequencer) : BellSequencer := { bs with replay := .idle, spacing := 0 }

/-- The age of an entry in ms: now − due, at least 0; 0 for an absent due instant and while UNSET (R60). -/
def entryAge (now : Option Instant) (e : Deferred) : Nat :=
  match now, e.due with
  | some n, some d => (n.since d).toNat
  | _, _ => 0

/-- A pattern starts, or a scheduled chime claims, on a zone set (R23, R62, R63). -/
def State.soundOn (sound : Sound) (zones : ZoneSet) (origin : Origin) (s : State) : State :=
  match sound with
  | .pattern i => s.onFloor (Floor.start i zones origin)
  | .chime => s.onFloor (Floor.chimeClaim s.tb.tick zones)

/-- The overrun marker position is removed by replay or by a reset (R60, R67). -/
def BellSequencer.clearMarker (bs : BellSequencer) : BellSequencer :=
  if bs.marker then { bs with marker := false, deferredOverruns := satInc bs.deferredOverruns } else bs

/-- Every position is removed without sounding, each counted as discarded (R61, R67). -/
def BellSequencer.discardAll (bs : BellSequencer) : BellSequencer :=
  { bs.clearMarker with deferred := [], replayDiscarded := satAdd bs.replayDiscarded bs.deferred.length }

/-- One entry ranks at or above another: an absent due instant is later than any, and a tie goes to the newer, here the
second argument's successor in the queue (R62). -/
def rankAtLeast (e best : Deferred) : Bool :=
  match e.due, best.due with
  | none, _ => true
  | some _, none => false
  | some d, some b => !b.later d

/-- The position chosen for zone z among a queue numbered from k, oldest first (R62). -/
def chooseLatest (z : Zone) (best : Option (Nat × Deferred)) : Nat → List Deferred → Option (Nat × Deferred)
  | _, [] => best
  | k, e :: rest =>
    let better := memSet z e.zones &&
      (match best with
       | none => true
       | some (_, b) => rankAtLeast e b)
    chooseLatest z (if better then some (k, e) else best) (k + 1) rest

/-- The zones that ring the entry at position k: chosen for it, within the age limit, and enabled (R62). -/
def State.latestZones (s : State) (k : Nat) : ZoneSet :=
  zonesWhere fun z =>
    (s.zone z).enabled &&
      (match chooseLatest z none 0 s.bs.deferred with
       | some (i, e) => i == k && decide (entryAge s.tb.now? e ≤ s.bs.replayAge * 1000)
       | none => false)

/-- The actions of the burst, with the zones each entry won (R62). -/
def State.burst (s : State) : List (Deferred × ZoneSet) :=
  s.bs.deferred.zipIdx.map fun p => (p.1, s.latestZones p.2)

/-- Policy LATEST: the whole queue becomes one burst; an entry that won zones counts as replayed, any other as discarded
(R62). -/
def State.replayLatest (s : State) : State :=
  let burst := s.burst
  let s := s.onBs fun bs => { bs.clearMarker with deferred := [] }
  burst.foldl
    (fun s p =>
      if p.2 = 0 then s.onBs fun bs => { bs with replayDiscarded := satInc bs.replayDiscarded }
      else
        (s.soundOn p.1.sound p.2 p.1.origin).onBs fun bs => { bs with replayed := satInc bs.replayed }) s

/-- Policy ALL: heads are removed until one is replayed or the queue is empty (R63). -/
def State.replayTake : List Deferred → State → State
  | [], s => s.onBs BellSequencer.stopReplay
  | e :: rest, s =>
    let s := s.onBs fun bs => { (if rest.isEmpty then bs.clearMarker else bs) with deferred := rest }
    if s.bs.replayAge * 1000 < entryAge s.tb.now? e then
      State.replayTake rest (s.onBs fun bs => { bs with replayDiscarded := satInc bs.replayDiscarded })
    else
      (s.soundOn e.sound (e.zones &&& s.enabledZones) e.origin).onBs fun bs =>
        { bs with replayed := satInc bs.replayed, spacing := bs.replaySpacing * 1000 }

/-- The next head is taken under ALL (R63). -/
def State.replayNext (s : State) : State := s.replayTake s.bs.deferred

/-- Replay begins with the policy in force (R60). -/
def State.replayBegin (s : State) : State :=
  let s := s.onBs BellSequencer.stopReplay
  if s.bs.deferred.isEmpty then s
  else
    match s.bs.replayPolicy with
    | .none => s.onBs BellSequencer.discardAll
    | .latest => s.replayLatest
    | .all => (s.onBs fun bs => { bs with replay := .running }).replayNext

/-! ## Ringing (R53, R58) -/

/-- How a bell is counted: by the counter of bells rung, or by that of bells deferred. -/
structure BellCounts where
  rung : BellSequencer → BellSequencer
  deferred : BellSequencer → BellSequencer

/-- A bell's covered part is deferred and the rest of its firing set sounds (R33, R53, R58). The bell counts as rung
when the covered part is empty, and as deferred otherwise. -/
def State.ring (sound : Sound) (zones : ZoneSet) (origin : Origin) (due : Option Instant) (counts : BellCounts)
    (s : State) : State :=
  let firing := zones &&& s.enabledZones
  let covered := firing &&& s.dc.seized
  if covered = 0 then
    ((s.soundOn sound firing origin).onBs counts.rung).onBs BellSequencer.heardBell
  else
    let rest := diffSet firing s.dc.seized
    let s := s.defer { zones := covered, sound, due, origin }
    let s := (s.soundOn sound rest origin).onBs counts.deferred
    if rest = 0 then s else s.onBs BellSequencer.heardBell

/-- A commanded bell rung when it fell due by advance, or as an immediate cell (R53, R56, R65). -/
def lineCounts : BellCounts :=
  { rung := fun bs => { bs with lineFired := satInc bs.lineFired },
    deferred := fun bs => { bs with lineDeferred := satInc bs.lineDeferred } }

/-- A commanded bell rung at arrival or at a forward step within late grace (R54, R57, R65). -/
def lineLateCounts : BellCounts :=
  { lineCounts with rung := fun bs => { bs with lineFiredLate := satInc bs.lineFiredLate } }

/-- A bell of a contact input (R58, R65). -/
def inputCounts : BellCounts :=
  { rung := fun bs => { bs with inputRung := satInc bs.inputRung },
    deferred := fun bs => { bs with inputDeferred := satInc bs.inputDeferred } }

/-- A contact input asks for an immediate bell (R58). -/
def State.inputBell (pattern : Fin 16) (zones : ZoneSet) (s : State) : State :=
  s.ring (.pattern pattern) zones .input s.tb.now? inputCounts

/-! ## Commanded bells and the pending bell list (R51 to R57) -/

/-- Late grace in ms (R42). -/
def BellSequencer.graceMs (bs : BellSequencer) : Nat := bs.lateGrace * 1000

/-- The pending entries a list holds at most (R55). -/
def pendingLimit : Nat := 16

/-- The instant 24 h later: (D + 1 mod 65536, M) (R51). -/
def Instant.nextDay (t : Instant) : Instant := { t with day := t.day + 1 }

/-- The due instant of a BELL cell. -/
def bellDue (c : BellCell) : Instant := { day := c.dueDay, ms := c.dueMs.toNat }

/-- The form test of R51. -/
def bellFormOk (now : Option Instant) (immediate : Bool) (c : BellCell) : Bool :=
  decide (c.pattern.toNat ≤ 15) &&
    (immediate ||
      (decide (c.dueMs.toNat < dayMs) &&
        (match now with
         | some n => !(bellDue c).later n.nextDay
         | none => true)))

/-- The pending entry with a command id leaves the list (R52). -/
def BellSequencer.removePending (id : Byte) (bs : BellSequencer) : BellSequencer :=
  { bs with pendingBells := bs.pendingBells.filter fun p => p.id != id }

/-- An entry is inserted after every entry whose due instant is not later than its own (R55). -/
def insertPending (e : PendingBell) : List PendingBell → List PendingBell
  | [] => [e]
  | p :: rest => if p.due.later e.due then e :: p :: rest else p :: insertPending e rest

/-- The cancel of a booking (R52). -/
def State.bellCancelId (id : Byte) (s : State) : State :=
  if s.bs.pendingBells.any fun p => p.id == id then
    (s.onBs (BellSequencer.removePending id)).onBs fun bs => { bs with lineCancelled := satInc bs.lineCancelled }
  else s

/-- The pattern a BELL cell names, once its form has been tested. -/
def bellPattern (c : BellCell) : Fin 16 := Fin.ofNat 16 c.pattern.toNat

/-- A booking is listed in due order, or dropped with BELL_LIST_FULL (R55). -/
def State.listBell (c : BellCell) (s : State) : State :=
  if s.bs.pendingBells.length < pendingLimit then
    s.onBs fun bs =>
      { bs with pendingBells := insertPending { id := c.id, zones := c.zones, pattern := bellPattern c, due := bellDue c }
                  bs.pendingBells }
  else
    (s.onBs fun bs => { bs with lineListFull := satInc bs.lineListFull }).post flagBellListFull
      ([c.id, c.pattern] ++ be16 c.zones)

/-- A bell dropped or removed as too late (R54, R57). -/
def BellSequencer.skipLine (bs : BellSequencer) : BellSequencer := { bs with lineSkipped := satInc bs.lineSkipped }

/-- A cell with a due instant is listed, rung late or skipped (R54). -/
def State.bellBook (c : BellCell) (s : State) : State :=
  match s.tb.now? with
  | none => s.onBs BellSequencer.skipLine
  | some n =>
    if (bellDue c).later n then s.listBell c
    else if n.since (bellDue c) ≤ (s.bs.graceMs : Int) then
      s.ring (.pattern (bellPattern c)) c.zones .line (some (bellDue c)) lineLateCounts
    else s.onBs BellSequencer.skipLine

/-- A good BELL cell at the bell sequencer (R51 to R54). -/
def State.takeBell (cancel immediate : Bool) (c : BellCell) (s : State) : State :=
  if s.inGroups c.groups = false then s
  else if cancel then s.bellCancelId c.id
  else if bellFormOk s.tb.now? immediate c = false then
    s.onBs fun bs => { bs with lineMalformed := satInc bs.lineMalformed }
  else
    let s := s.onBs (BellSequencer.removePending c.id)
    if immediate then s.ring (.pattern (bellPattern c)) c.zones .line s.tb.now? lineCounts
    else s.bellBook c

/-- The pending entries due not later than b leave the head of the list (R56, R57). -/
def State.takeDuePending (b : Instant) (each : PendingBell → State → State) (s : State) : State :=
  let due := s.bs.pendingBells.takeWhile fun p => !p.due.later b
  let s := s.onBs fun bs => { bs with pendingBells := bs.pendingBells.dropWhile fun p => !p.due.later b }
  due.foldl (fun s p => each p s) s

/-- The pending list at a time advance to b (R56). -/
def State.pendingAdvance (b : Instant) (s : State) : State :=
  s.takeDuePending b fun p => State.ring (.pattern p.pattern) p.zones .line (some p.due) lineCounts

/-- The pending list at a forward step to b (R57). -/
def State.pendingStep (b : Instant) (s : State) : State :=
  s.takeDuePending b fun p s =>
    if b.since p.due ≤ (s.bs.graceMs : Int) then
      s.ring (.pattern p.pattern) p.zones .line (some p.due) lineLateCounts
    else s.onBs BellSequencer.skipLine

/-! ## Reset (R67) -/

/-- What station reset and the bells unit reset do to the pending list, the deferred queue and replay (R67). -/
def BellSequencer.unitReset (bs : BellSequencer) : BellSequencer :=
  { bs.discardAll.stopReplay with pendingBells := [] }

end Sys2Proof.Machine
end

