-- ==== Sys2Proof/Machine/Drill.lean ====
section
/-! DEFINITION. The drill controller: commands, the evacuation pattern, the hand-back, the fire-panel mirror and the
drill records (R138 to R151, R155). -/

namespace Sys2Proof.Machine

/-! ## Elapsed time and records -/

/-- The drill elapsed time e, 0 where the spec says it is none (R138). -/
def DrillController.elapsed (dc : DrillController) (now : Tick) : Nat :=
  match dc.drillStart with
  | some start => min elapsedLimit (ticksSince now start)
  | none => 0

/-- A record is placed as the newest; a fifth removes the oldest (R149). -/
def DrillController.place (r : DrillRecord) (dc : DrillController) : DrillController :=
  { dc with ring := (r :: dc.ring).take 4 }

/-- The open record closes with an outcome and end elapsed e (R145, R146, R147, R155). -/
def DrillController.close (outcome : RecordOutcome) (now : Tick) (dc : DrillController) : DrillController :=
  { dc.editOpen fun r => { r with outcome, endElapsed := dc.elapsed now } with openRecord := none }

/-- The record of a panel episode (R148, R155). -/
def DrillController.panelRecord (outcome : RecordOutcome) (now : Tick) (dc : DrillController) : DrillRecord :=
  { kind := .panel, number := 0, source := .input,
    start := match dc.panelStart with
      | some (_, instant) => instant
      | none => none,
    silence := none, limit := false, muster := none, musters := 0,
    endElapsed := match dc.panelStart with
      | some (start, _) => min elapsedLimit (ticksSince now start)
      | none => 0,
    outcome, deferred := dc.panelDeferred, lost := dc.panelLost }

/-- The drill number of the record concerned by a change out of this state, or 0 (R150, log 18). -/
def DrillController.number (dc : DrillController) : BitVec 16 :=
  match dc.state with
  | .sounding | .silenced | .clearing =>
    match dc.ring.head? with
    | some r => r.number
    | none => 0
  | .idle | .panel => 0

/-! ## Reports -/

/-- The causes of DRILL_STATE (Formats). -/
inductive DrillCause where
  | line | input | soundLimit | chimeEnd | panel | reset
deriving DecidableEq, Repr

def DrillCause.code : DrillCause → Byte
  | .line => 0
  | .input => 1
  | .soundLimit => 2
  | .chimeEnd => 3
  | .panel => 4
  | .reset => 5

def DrillOrigin.cause : DrillOrigin → DrillCause
  | .line => .line
  | .input => .input

/-- The codes of the drill states (Formats). -/
def DrillState.code : DrillState → BitVec 4
  | .idle => 0
  | .sounding => 1
  | .silenced => 2
  | .clearing => 3
  | .panel => 4

/-- DRILL_STATE is posted: new and previous state, cause, drill number (R150, Formats). -/
def State.postDrillState (before after : DrillState) (cause : DrillCause) (number : BitVec 16) (s : State) : State :=
  s.post flagDrillState ([after.code ++ before.code, cause.code] ++ be16 number)

/-- The drill controller changes state and seized set and reports them to the zone arbiter (R81, R138). -/
def State.drillReport (after : DrillState) (seized : ZoneSet) (s : State) : State :=
  (s.onFloor (Floor.report s.dc.state after s.dc.seized seized)).onDc
    fun dc => { dc with state := after, seized }

/-- In IDLE there is no drill and no episode: the named and seized sets are empty, and the elapsed time, the chime and
the evacuation pattern stop (R138, R146). -/
def DrillController.quiet (dc : DrillController) : DrillController :=
  { dc with state := .idle, named := 0, seized := 0, drillStart := none, evacStart := none, evacSignal := false,
            chimeStart := none, panelStart := none, panelDeferred := 0, panelLost := 0 }

/-- The building is handed back: the IDLE report to the zone arbiter, then the return to IDLE to the bell sequencer,
which begins replay (R146). -/
def State.handBack (s : State) : State :=
  ((s.drillReport .idle 0).onDc DrillController.quiet).replayBegin

/-! ## Commands (R140 to R146) -/

inductive DrillCommand where
  | start | silence | muster | allClear | abort
deriving DecidableEq, Repr

/-- The command codes of a DRILL cell (Formats). -/
def drillCommandOf (code : BitVec 4) : Option DrillCommand :=
  match code.toNat with
  | 1 => some .start
  | 2 => some .silence
  | 3 => some .muster
  | 4 => some .allClear
  | 5 => some .abort
  | _ => none

/-- The record a START opens (R141). -/
def newDrillRecord (source : DrillOrigin) (number : BitVec 16) (start : Option Instant) : DrillRecord :=
  { kind := .drill, number, source, start, silence := none, limit := false, muster := none, musters := 0,
    endElapsed := 0, outcome := .opened, deferred := 0, lost := 0 }

/-- A START taken in IDLE or CLEARING begins a drill (R141). -/
def State.drillBegin (source : DrillOrigin) (number : BitVec 16) (zones : Option ZoneSet) (s : State) : State :=
  let named := zones.getD s.drillZones
  let before := s.dc.state
  let now := s.tb.tick
  let s := s.onDc fun dc =>
    { dc.place (newDrillRecord source number s.tb.now?) with
      named, drillStart := some now, evacStart := some now, evacSignal := true, chimeStart := none,
      openRecord := some 0 }
  let s := s.drillReport .sounding (named &&& s.enabledZones)
  let s := if before = .idle then s.onBs BellSequencer.stopReplay else s
  let s := s.postDrillState before .sounding source.cause number
  s.onDc fun dc =>
    match source with
    | .line => { dc with startedLine := satInc dc.startedLine }
    | .input => { dc with startedInput := satInc dc.startedInput }

/-- SOUNDING becomes SILENCED, by a command or by the sound limit (R143). -/
def State.drillSilenced (cause : DrillCause) (s : State) : State :=
  let e := s.dc.elapsed s.tb.tick
  let number := s.dc.number
  let s := s.onDc fun dc => dc.editOpen fun r => { r with silence := some e, limit := cause == .soundLimit }
  (s.drillReport .silenced s.dc.seized).postDrillState .sounding .silenced cause number

/-- A MUSTER marks a muster in the open record (R144). -/
def State.drillMustered (s : State) : State :=
  let e := s.dc.elapsed s.tb.tick
  s.onDc fun dc => dc.editOpen fun r =>
    { r with musters := satInc r.musters, muster := some (r.muster.getD e) }

/-- An ALL_CLEAR closes the record CLEARED and enters CLEARING (R145). -/
def State.drillCleared (cause : DrillCause) (s : State) : State :=
  let before := s.dc.state
  let number := s.dc.number
  let s := s.onDc fun dc => { dc.close .cleared s.tb.tick with chimeStart := some s.tb.tick }
  (s.drillReport .clearing s.dc.seized).postDrillState before .clearing cause number

/-- An ABORT ends the drill at once (R146). -/
def State.drillAborted (cause : DrillCause) (s : State) : State :=
  let before := s.dc.state
  let number := s.dc.number
  let s := s.onDc fun dc => dc.close .aborted s.tb.tick
  (s.postDrillState before .idle cause number).handBack

/-- A command that is ignored increases the drill ignored count and changes nothing else (R140). -/
def State.drillIgnored (s : State) : State := s.onDc fun dc => { dc with ignored := satInc dc.ignored }

/-- A command is taken by the drill state (R140). -/
def State.drillCommand (command : DrillCommand) (source : DrillOrigin) (number : BitVec 16) (zones : Option ZoneSet)
    (s : State) : State :=
  match s.dc.state, command with
  | .panel, _ => s.onDc fun dc => { dc with inPanel := satInc dc.inPanel }
  | .idle, .start | .clearing, .start => s.drillBegin source number zones
  | .sounding, .silence => s.drillSilenced source.cause
  | .sounding, .muster | .silenced, .muster => s.drillMustered
  | .sounding, .allClear | .silenced, .allClear => s.drillCleared source.cause
  | .sounding, .abort | .silenced, .abort | .clearing, .abort => s.drillAborted source.cause
  | .idle, .silence | .idle, .muster | .idle, .allClear | .idle, .abort | .sounding, .start | .silenced, .start
  | .silenced, .silence | .clearing, .silence | .clearing, .muster | .clearing, .allClear => s.drillIgnored

/-- A good DRILL cell at the drill controller (R140). -/
def State.takeDrill (code : BitVec 4) (c : DrillCell) (s : State) : State :=
  if s.inGroups c.groups = false then s
  else
    match drillCommandOf code with
    | none => s.onDc fun dc => { dc with malformed := satInc dc.malformed }
    | some command => s.drillCommand command .line c.number (if c.zonesGiven then some c.zones else none)

/-! ## Events of the drill controller's own -/

/-- The drill elapsed time has reached the sound limit in SOUNDING (R143). -/
def State.soundLimitDue (s : State) : Bool :=
  s.dc.state == .sounding && decide (s.dc.soundLimit * 1000 ≤ s.dc.elapsed s.tb.tick)

/-- The all-clear chime is complete: its start + 3000 has been reached in CLEARING (R145). -/
def State.allClearDue (s : State) : Bool :=
  s.dc.state == .clearing &&
    (match s.dc.chimeStart with
     | some start => decide (3000 ≤ ticksSince s.tb.tick start)
     | none => false)

/-- The state becomes IDLE at the end of the all-clear chime, and the hand-back is made (R145, R146). -/
def State.allClearEnd (s : State) : State :=
  (s.postDrillState .clearing .idle .chimeEnd s.dc.number).handBack

/-- The evacuation signal at a phase 0..3999: three strokes of 500 ms on and 500 ms off, then silence (R142). -/
def evacOn (phase : Nat) : Bool := decide (phase < 3000) && phase / 500 % 2 == 0

/-- The evacuation signal the present phase gives (R142). -/
def State.evacNow (s : State) : Bool :=
  match s.dc.evacStart with
  | some start => evacOn (ticksSince s.tb.tick start % 4000)
  | none => false

/-- A phase boundary of the evacuation pattern has come: in SOUNDING the signal differs from the phase's (R142). -/
def State.evacDue (s : State) : Bool := s.dc.state == .sounding && s.dc.evacSignal != s.evacNow

/-! ## The fire-panel mirror (R147, R148) -/

/-- An input stands active when its debounced level equals its active level (R154). -/
def Contact.standsActive (c : Contact) : Bool := c.level == c.activeHigh

/-- The PANEL_ALARM inputs that stand active, lowest number first. -/
def State.panelInputs (s : State) : List InputId :=
  (List.finRange 8).filter fun n => (s.input n).function == .panelAlarm && (s.input n).standsActive

/-- The panel condition holds (R147). -/
def State.panelHolds (s : State) : Bool := !s.panelInputs.isEmpty

/-- The panel condition begins: the drill controller enters PANEL from whatever state it is in (R147). -/
def State.panelBegin (trigger : InputId) (s : State) : State :=
  let before := s.dc.state
  let number := s.dc.number
  let s := s.onDc fun dc =>
    { dc.close .superseded s.tb.tick with
      named := 0, drillStart := none, evacStart := none, evacSignal := false, chimeStart := none,
      panelStart := some (s.tb.tick, s.tb.now?), panelDeferred := 0, panelLost := 0,
      episodes := satInc dc.episodes }
  let s := s.drillReport .panel s.enabledZones
  let s := if before = .idle then s.onBs BellSequencer.stopReplay else s
  (s.postDrillState before .panel .panel number).post flagPanelAlarm
    [byteNat trigger.val, before.code.setWidth 8, byteNat (countSet s.enabledZones), 0]

/-- The panel condition ends: the panel record is placed and the building handed back (R148). -/
def State.panelEnd (s : State) : State :=
  let s := s.onDc fun dc => dc.place (dc.panelRecord .cleared s.tb.tick)
  (s.postDrillState .panel .idle .panel 0).handBack

/-- The panel condition is worked out again, and its beginning or end is acted on (R147, R148, R152). `trigger` is the
input whose edge it was; with none, the lowest-numbered active panel input is named (R150). -/
def State.panelUpdate (trigger : Option InputId) (s : State) : State :=
  match s.panelInputs with
  | [] => if s.dc.state = .panel then s.panelEnd else s
  | n :: _ => if s.dc.state = .panel then s else s.panelBegin (trigger.getD n)

/-! ## Zones enabled and disabled during a drill (R139) -/

/-- The seized set as R139 works it out for the present state would hold z once it is enabled. -/
def DrillController.wouldHold (dc : DrillController) (z : Zone) : Bool :=
  match dc.state with
  | .idle => false
  | .sounding | .silenced | .clearing => memSet z dc.named
  | .panel => true

/-- A zone that joins the seized set is seized alone under the modes in force (R139). -/
def State.joinSeized (z : Zone) (s : State) : State :=
  match s.dc.state.modes with
  | none => s
  | some (m, b) =>
    if s.dc.wouldHold z then
      (s.onDc fun dc => { dc with seized := insertZone z dc.seized }).onFloor (Floor.seize m b z)
    else s

/-! ## Resets (R155) -/

/-- A reset closes the OPEN record, or places the panel record, with outcome RESET (R155). -/
def DrillController.resetRecords (now : Tick) (dc : DrillController) : DrillController :=
  if dc.state = .panel then dc.place (dc.panelRecord .reset now) else dc.close .reset now

/-- Station reset: IDLE with the seized set empty, records closed, no report and no flag (R155). -/
def DrillController.stationReset (now : Tick) (dc : DrillController) : DrillController := (dc.resetRecords now).quiet

/-- UNIT_RESET of the drill unit: as station reset, then the hand-back, DRILL_STATE with cause reset, and the
examination of the panel condition (R155). -/
def State.drillUnitReset (s : State) : State :=
  let before := s.dc.state
  let number := s.dc.number
  let s := s.onDc fun dc => dc.resetRecords s.tb.tick
  let s := s.handBack.postDrillState before .idle .reset number
  s.panelUpdate none

end Sys2Proof.Machine
end

