-- ==== Sys2Proof/Machine/Plans.lean ====
section
/-! DEFINITION. Plan selection, the mark H, crossing by advance and by step, and the lookahead (R23, R28 to R41). -/

namespace Sys2Proof.Machine

/-! ## Selection (R28, R29) -/

/-- The lowest-indexed valid exception slot that names a day (R27, R28). -/
def BellSequencer.exceptionFor (bs : BellSequencer) (day : BitVec 16) : Option (Fin 32) :=
  (List.finRange 32).find? fun i => bs.exceptions[i].valid && bs.exceptions[i].day == day

def PlanChoice.selection : PlanChoice → Selection
  | some n => .plan n
  | none => .noBells

/-- The selection and its source for a day number and weekday (R28). -/
def BellSequencer.select (bs : BellSequencer) (day : BitVec 16) (weekday : Fin 7) : Selection × Source :=
  match bs.exceptionFor day with
  | some i => (PlanChoice.selection bs.exceptions[i].plan, .slot i)
  | none => (PlanChoice.selection bs.dayMap[weekday], .dayMap)

/-- Plan selection is redone from the campus time record; while UNSET there is none (R28, R29, log 15). -/
def State.reselect (s : State) : State :=
  if s.tb.state = .unset then s.onBs fun bs => { bs with selection := .none, source := .none }
  else
    s.onBs fun bs =>
      let chosen := bs.select s.tb.now.day s.tb.now.weekday
      { bs with selection := chosen.1, source := chosen.2 }

/-! ## Crossing -/

/-- An event's instant on a day (R22). -/
def PlanEvent.instant (e : PlanEvent) (day : BitVec 16) : Instant := { day, ms := e.time * 1000 }

/-- An event placed in ascending order of time, after those of equal time (R31). -/
def insertEvent (p : Fin 48 × PlanEvent) : List (Fin 48 × PlanEvent) → List (Fin 48 × PlanEvent)
  | [] => [p]
  | q :: rest => if p.2.time < q.2.time then p :: q :: rest else q :: insertEvent p rest

/-- The valid events of a plan whose instants on a day lie in (lo, hi], in ascending order of time and slot (R31). -/
def Plan.crossed (plan : Plan) (day : BitVec 16) (lo hi : Instant) : List (Fin 48 × PlanEvent) :=
  (((List.finRange 48).map fun i => (i, plan[i])).filter
    fun p => p.2.valid && (p.2.instant day).within lo hi).foldl (fun acc p => insertEvent p acc) []

/-- The events of today's active plan crossed in (lo, hi] on a day; none while no plan is active (R28). -/
def BellSequencer.crossed (bs : BellSequencer) (day : BitVec 16) (lo hi : Instant) :
    List (Fin 8 × Fin 48 × PlanEvent) :=
  match bs.selection with
  | .plan n => (Plan.crossed bs.plans[n] day lo hi).map fun p => (n, p)
  | .none | .noBells => []

/-- Plan events fired by advance (R39). -/
def planCounts : BellCounts :=
  { rung := fun bs => { bs with planFired := satInc bs.planFired },
    deferred := fun bs => { bs with planDeferred := satInc bs.planDeferred } }

/-- Plan events fired late by a step (R39). -/
def planLateCounts : BellCounts :=
  { planCounts with rung := fun bs => { bs with planFiredLate := satInc bs.planFiredLate } }

/-- A plan event fires, or its covered part is deferred; a MARK has no output and always fires (R23, R33, R34, R35). -/
def State.fireEvent (counts : BellCounts) (day : BitVec 16) (e : PlanEvent) (s : State) : State :=
  match e.action with
  | .mark => s.onBs counts.rung
  | .bell => s.ring (.pattern e.pattern) e.zones .plan (some (e.instant day)) counts
  | .chime => s.ring .chime e.zones .plan (some (e.instant day)) counts

/-- The events of the active plan in (lo, hi] on a day, each handled in order. -/
def State.fireCrossed (counts : BellCounts) (day : BitVec 16) (lo hi : Instant) (s : State) : State :=
  (s.bs.crossed day lo hi).foldl (fun s p => s.fireEvent counts day p.2.2) s

/-- H becomes b (R30). -/
def BellSequencer.markAt (b : Instant) (bs : BellSequencer) : BellSequencer := { bs with mark := some b }

/-- Plan events at a time advance from a to b (R31, R32). -/
def State.planAdvance (a b : Instant) (dayChange : Bool) (s : State) : State :=
  match s.bs.mark with
  | none => if dayChange then s.reselect else s
  | some h =>
    let lo := a.latest h
    if dayChange then
      if b.later h then
        (((s.fireCrossed planCounts a.day lo b).reselect).fireCrossed planCounts b.day lo b).onBs
          (BellSequencer.markAt b)
      else s.reselect
    else if b.later h then (s.fireCrossed planCounts b.day lo b).onBs (BellSequencer.markAt b)
    else s

/-- A time advance at the bell sequencer: the plan events, then the pending bell list (R31, R32, R56). -/
def State.bellAdvance (a b : Instant) (dayChange : Bool) (s : State) : State :=
  (s.planAdvance a b dayChange).pendingAdvance b

/-! ## Crossing by step (R35 to R38, R40) -/

/-- The direction of a step (R12). -/
inductive Direction where
  | forward | backward | none
deriving DecidableEq, Repr

/-- Plan events skipped by a step, the first in crossing order first (R40). -/
abbrev Skips := List (Fin 8 × Fin 48 × PlanEvent)

/-- Events counted as skipped; nothing sounds (R35, R36). -/
def BellSequencer.skipEvents (n : Nat) (bs : BellSequencer) : BellSequencer :=
  { bs with planSkipped := satAdd bs.planSkipped n }

/-- A forward step within one day (R35). -/
def State.stepSameDay (a b h : Instant) (s : State) : State × Skips :=
  let events := s.bs.crossed b.day (a.latest h) b
  let late := fun (p : Fin 8 × Fin 48 × PlanEvent) =>
    decide ((s.bs.graceMs : Int) < b.since (p.2.2.instant b.day))
  let skipped := events.filter late
  let s := s.onBs (BellSequencer.skipEvents skipped.length)
  let s := (events.filter fun p => !late p).foldl (fun s p => s.fireEvent planLateCounts b.day p.2.2) s
  (s.onBs (BellSequencer.markAt b), skipped)

/-- The last ms of a day. -/
def lastMs (day : BitVec 16) : Instant := { day, ms := dayMs - 1 }

/-- Where H is placed by a step into a later day (R36, part 3). -/
def BellSequencer.placement (bs : BellSequencer) (h b : Instant) : Instant :=
  (h.latest (lastMs (b.day - 1))).latest (b.before (bs.graceMs + 1))

/-- A forward step into a later day (R36). -/
def State.stepLaterDay (a b h : Instant) (s : State) : State × Skips :=
  let skipped := s.bs.crossed a.day h (lastMs a.day)
  let s := (s.onBs (BellSequencer.skipEvents skipped.length)).reselect
  let s := s.fireCrossed planLateCounts b.day (s.bs.placement h b) b
  (s.onBs (BellSequencer.markAt b), skipped)

/-- Plan events at a step report (R35 to R38). -/
def State.planStep (a b : Instant) (dir : Direction) (dayMark : Bool) (s : State) : State × Skips :=
  match dir, s.bs.mark with
  | .forward, some h =>
    if a.day = b.day then
      let s := if dayMark then s.reselect else s
      if b.later h then s.stepSameDay a b h else (s, [])
    else if b.later h then s.stepLaterDay a b h
    else (s.reselect, [])
  | _, _ => (if dayMark then s.reselect else s, [])

/-- BELL_SKIPPED is posted once for a step that skipped plan events (R40). -/
def State.postSkips (skips : Skips) (s : State) : State :=
  match skips with
  | [] => s
  | (plan, slot, _) :: _ =>
    s.post flagBellSkipped
      (be16 (BitVec.ofNat 16 (min 65535 skips.length)) ++ [byteNat plan.val, byteNat slot.val])

/-- A step report at the bell sequencer: the plan events, the pending bell list, and BELL_SKIPPED (R35 to R40, R57,
log 17). -/
def State.bellStep (a b : Instant) (dir : Direction) (dayMark : Bool) (s : State) : State :=
  let r := s.planStep a b dir dayMark
  let s := if dir = .forward then r.1.pendingStep b else r.1
  s.postSkips r.2

/-- The first set at the bell sequencer: H becomes the instant of the new time and the plan is selected (R29, R30). -/
def State.bellFirstSet (s : State) : State :=
  (s.onBs (BellSequencer.markAt s.tb.now.instant)).reselect

/-! ## Lookahead (R41) -/

/-- The earliest candidate for a zone set, the lowest slot first among equals (R41). -/
def earliestEvent : List PlanEvent → Option PlanEvent
  | [] => none
  | e :: rest =>
    match earliestEvent rest with
    | none => some e
    | some best => if best.time < e.time then some best else some e

/-- The next event of today's active plan that concerns a zone set, with its instant; none as R41 gives. -/
def State.lookahead (zones : ZoneSet) (s : State) : Option (Instant × PlanEvent) :=
  match s.tb.now?, s.bs.mark, s.bs.selection with
  | some now, some h, .plan n =>
    let day := s.tb.now.day
    let candidates := (s.bs.plans[n].toList).filter fun e =>
      e.valid && (e.instant day).later now && (e.instant day).later h && (e.zones &&& zones) != 0
    (earliestEvent candidates).map fun e => (e.instant day, e)
  | _, _, _ => none

end Sys2Proof.Machine
end

