-- ==== Sys2Proof/Machine/Display.lean ====
section
/-! DEFINITION. Display clock circuits: the frame and its serial layout (R126 to R134, Formats). -/

namespace Sys2Proof.Machine

/-- A character code of a frame (R126). -/
abbrev Code := BitVec 4

def codeBlank : Code := 10
def codeDash : Code := 11
def codeColon : Code := 12
def codeHoldover : Code := 13
def codeAlarm : Code := 14
def codeP : Code := 15

/-- A number clamped to 0..99 and written as two characters (R129). -/
def twoDigits (n : Nat) : List Code :=
  let v := min 99 n
  [BitVec.ofNat 4 (v / 10), BitVec.ofNat 4 (v % 10)]

/-- The colon of region A: the holdover point in HOLDOVER (R130, R131). -/
def colonOf (t : TimeState) : Code := if t = .holdover then codeHoldover else codeColon

/-- The hour of 12: a tens digit of 0 is blank (R130). -/
def hour12 (hour : Nat) : List Code :=
  let h := if hour % 12 = 0 then 12 else hour % 12
  if h < 10 then [codeBlank, BitVec.ofNat 4 h] else twoDigits h

/-- The natural string of region A (R130, R131). -/
def regionAText (format : RegionA) (tb : TimeBase) : List Code :=
  let colon := colonOf tb.state
  let digits := fun n => if tb.state = .unset then [codeDash, codeDash] else twoDigits n
  let hour := tb.now.hour
  match format with
  | .hhmm24 => digits hour ++ [colon] ++ digits tb.now.minute
  | .hhmm12 =>
    if tb.state = .unset then [codeDash, codeDash, colon, codeDash, codeDash, codeDash]
    else hour12 hour ++ [colon] ++ digits tb.now.minute ++ [if 12 ≤ hour then codeP else codeBlank]
  | .hhmmss => digits hour ++ [colon] ++ digits tb.now.minute ++ [colon] ++ digits tb.now.second

/-- The minutes shown for an interval of r ms: the ceiling of r / 60,000 (R132). -/
def minutesShown (r : Nat) : Nat := (r + 59999) / 60000

/-- The natural string of region B outside a drill override (R132). -/
def State.regionBText (source : RegionB) (linked : ZoneSet) (s : State) : List Code :=
  match source with
  | .blank => [codeBlank, codeBlank]
  | .remain =>
    match s.lookahead linked with
    | some (t, _) => twoDigits (minutesShown (t.since s.tb.now.instant).toNat)
    | none => [codeDash, codeDash]
  | .label =>
    match s.lookahead linked with
    | some (_, e) =>
      (match e.label with
       | some n => twoDigits n
       | none => [codeDash, codeDash])
    | none => [codeDash, codeDash]
  | .seconds => if s.tb.state = .unset then [codeDash, codeDash] else twoDigits s.tb.now.second

/-- The drill override applies to a circuit (R133). -/
def State.overrides (linked : ZoneSet) (s : State) : Bool :=
  match s.dc.state with
  | .idle => false
  | .panel => true
  | .sounding | .silenced | .clearing => linked == 0 || (linked &&& s.dc.seized) != 0

/-- The drill field (R133). -/
def State.drillField (s : State) : List Code :=
  if s.dc.state = .panel then [codeAlarm, codeDash, codeDash]
  else codeAlarm :: twoDigits (s.dc.elapsed s.tb.tick / 60000)

/-- A string in region A of a width: filled from its left end, dropped from the right, padded with blanks (R128). -/
def fitLeft (width : Nat) (text : List Code) : List Code :=
  (text ++ List.replicate width codeBlank).take width

/-- A string in region B of a width: filled from its right end, dropped from the left, padded with blanks (R128). -/
def fitRight (width : Nat) (text : List Code) : List Code :=
  (List.replicate width codeBlank ++ text).drop text.length

/-- Eight positions from a list of codes. -/
def codesOf (text : List Code) : Vector Code 8 := Vector.ofFn fun i => text.getD i.val codeBlank

/-- The frame a display circuit composes from the values that stand (R127 to R134). -/
def State.composeFrame (c : CircuitConfig) (s : State) : Frame :=
  let drilled := s.overrides c.linked
  let split := if drilled then c.drillSplit else c.split
  let textB := if drilled then s.drillField else s.regionBText c.regionB c.linked
  { codes := codesOf (fitLeft split (regionAText c.regionA s.tb) ++ fitRight (8 - split) textB),
    blink := drilled && (s.dc.state == .sounding || s.dc.state == .panel) }

/-- Two positions as one character, the earlier in bits 7..4 (Formats). -/
def Frame.pair (f : Frame) (i : Fin 4) : Byte := f.codes[2 * i.val] ++ f.codes[2 * i.val + 1]

/-- The seven characters of a frame on CKAn (Formats). -/
def Frame.characters (f : Frame) : List Byte :=
  let body := [f.pair 0, f.pair 1, f.pair 2, f.pair 3, if f.blink then 1 else 0]
  [0xA5] ++ body ++ [body.foldl (· + ·) 0]

/-- The 70 bits of a frame: a start bit at the high level, 8 data bits with bit 0 first, a stop bit at the low level
(Formats); the level of a data bit of 1 is a free value (log 27). -/
def Frame.bits (f : Frame) : List Bool :=
  f.characters.flatMap fun b => [true] ++ (List.range 8).map (fun i => b.getLsbD i == Config.oneIsHigh) ++ [false]

/-- The cadence of frames in ms of tick (R127). -/
def framePeriod : Nat := 500

/-- The ms of tick a frame's 70 bit times at 9600 bit/s reach into (log 27). -/
def frameSendMs : Nat := 8

/-- A frame moment: one frame is composed and its sending starts; the next moment comes 500 ms later (R127). -/
def State.sendFrame (k : CircuitId) (s : State) : State :=
  let frame := s.composeFrame (s.circuit k).config
  s.setCircuit k fun c => { c with frame := some frame, sendLeft := frameSendMs, frameTimer := framePeriod }

/-- Frames stop at once; a frame being sent is cut (R135). -/
def Circuit.stopFrames (c : Circuit) : Circuit :=
  { c with frameTimer := 0, sendLeft := 0, frame := if c.sendLeft = 0 then c.frame else none }

/-- A frame moment has come (R127). -/
def Circuit.frameDue (c : Circuit) : Bool := c.config.mode == .display && c.frameTimer == 0

end Sys2Proof.Machine
end

