-- ==== Sys2Proof/Machine/Clocks.lean ====
section
/-! DEFINITION. Impulse clock circuits: target, decision, impulses, gaps, SET_DIAL and the clocks reset (R110 to R122,
R135, R136). -/

namespace Sys2Proof.Machine

/-- The number of dial positions P of an impulse mode; OFF and DISPLAY have none (R110). -/
def CircuitMode.positions : CircuitMode → Option Nat
  | .minute => some 720
  | .half => some 1440
  | .off | .display => none

/-- The hold span L: the hold window in dial positions (R110). -/
def CircuitConfig.holdSpan (c : CircuitConfig) : Nat :=
  match c.mode with
  | .half => 2 * c.hold
  | .minute | .off | .display => c.hold

/-- The target position t at a campus time (R112). -/
def targetAt (mode : CircuitMode) (t : CampusTime) : Nat :=
  let minutes := (t.hour % 12) * 60 + t.minute
  match mode with
  | .half => minutes * 2 + (if 30 ≤ t.second then 1 else 0)
  | .minute | .off | .display => minutes

/-- The target of a circuit: none while UNSET and outside the impulse modes (R112, R124). -/
def State.target (k : CircuitId) (s : State) : Option Nat :=
  let mode := (s.circuit k).config.mode
  if mode.positions = none ∨ s.tb.state = .unset then none else some (targetAt mode s.tb.now)

/-- The decision of an impulse circuit with P positions, hold span L, dial p and target t (R113). -/
def decisionOf (positions span dial : Nat) (target : Option Nat) : CircuitState :=
  match target with
  | none => .waitTime
  | some t =>
    let d := (t + positions - dial % positions) % positions
    if d = 0 then .inStep
    else if positions - d ≤ span then .hold
    else .advance

/-- The opposite polarity. -/
def Polarity.opposite : Polarity → Polarity
  | .pos => .neg
  | .neg => .pos

/-- An impulse starts: opposite polarity, the retained entry rewritten one position on, the pin high for the width in
force (R115). -/
def Circuit.startImpulse (positions : Nat) (c : Circuit) : Circuit :=
  let polarity := c.retained.polarity.opposite
  { c with retained := { dial := (c.retained.dial + 1) % positions, polarity }, inFlight := some polarity,
           impulseLeft := c.config.width, widthInForce := c.config.width, impulses := satInc c.impulses }

/-- The decision is made afresh; while an impulse is in flight it is carried to the end of its gap; ADVANCE starts an
impulse when no gap is running; OFF and DISPLAY have state OFF (R113 to R115). -/
def Circuit.decide (target : Option Nat) (c : Circuit) : Circuit :=
  match c.config.mode.positions with
  | none => { c with state := .off }
  | some positions =>
    if c.inFlight.isSome then c
    else
      let c := { c with state := decisionOf positions c.config.holdSpan c.retained.dial target }
      if c.state = .advance ∧ c.gap = none then c.startImpulse positions else c

/-- One circuit decides from the values that stand (R114). -/
def State.decideCircuit (k : CircuitId) (s : State) : State :=
  s.setCircuit k fun c => c.decide (s.target k)

/-- Every impulse circuit decides: a step report, the first set and a change of time state (R114, R118). -/
def State.decideAll (s : State) : State := forCircuits State.decideCircuit s

/-- At a time advance, the circuits whose target has changed decide (R117). -/
def State.clockAdvance (before : CampusTime) (s : State) : State :=
  forCircuits
    (fun k s =>
      let mode := (s.circuit k).config.mode
      if targetAt mode before = targetAt mode s.tb.now then s else s.decideCircuit k) s

/-- The width of an impulse has passed (R116). -/
def Circuit.impulseDue (c : Circuit) : Bool := c.inFlight.isSome && c.impulseLeft == 0

/-- A gap has ended (R116). -/
def Circuit.gapDue (c : Circuit) : Bool := c.gap == some 0

/-- An impulse ends: the pin goes low, the in-flight flag clears and the gap timer starts (R116). -/
def Circuit.endImpulse (c : Circuit) : Circuit :=
  { c with inFlight := none, impulseLeft := 0, gap := some c.widthInForce }

/-- The end of an impulse, with the reset that waited for it (R116, R122). -/
def State.impulseEnds (k : CircuitId) (s : State) : State :=
  let waiting := (s.circuit k).resetPending
  let s := s.setCircuit k fun c => { c.endImpulse with resetPending := false }
  if waiting then s.decideCircuit k else s

/-- The end of a gap: the circuit decides again (R116). -/
def State.gapEnds (k : CircuitId) (s : State) : State :=
  (s.setCircuit k fun c => { c with gap := none }).decideCircuit k

/-- One tick of a circuit's impulse, gap, frame cadence and frame being sent. -/
def Circuit.ticked (c : Circuit) : Circuit :=
  { c with impulseLeft := c.impulseLeft - 1, gap := c.gap.map (· - 1), frameTimer := c.frameTimer - 1,
           sendLeft := c.sendLeft - 1 }

/-! ## SET_DIAL (R119) -/

/-- The polarity code of SET_DIAL: POS 0, NEG 1, KEEP 2 (R166). -/
def polarityOf (code : Byte) (last : Polarity) : Option Polarity :=
  match code.toNat with
  | 0 => some .pos
  | 1 => some .neg
  | 2 => some last
  | _ => none

/-- The positions SET_DIAL takes on a circuit: below P, or below 1440 in OFF and DISPLAY (R119). -/
def CircuitMode.dialLimit (m : CircuitMode) : Nat := m.positions.getD 1440

/-- SET_DIAL on a circuit that exists: BUSY, FIELD, or the rewrite and a decision at once (R119). -/
def State.setDialOn (k : CircuitId) (position : Nat) (code : Byte) (s : State) : ReplyCode × State :=
  let c := s.circuit k
  if c.inFlight.isSome then (.busy, s)
  else
    match polarityOf code c.retained.polarity with
    | none => (.field, s)
    | some polarity =>
      if c.config.mode.dialLimit ≤ position then (.field, s)
      else (.ok, (s.setCircuit k fun c => { c with retained := { dial := position, polarity } }).decideCircuit k)

/-! ## Circuit records (R120, R121, R135) -/

/-- A committed record acts on the circuit at once, by what it changed (R121, R135). -/
def State.commitCircuit (k : CircuitId) (config : CircuitConfig) (s : State) : State :=
  let old := (s.circuit k).config.mode
  let s := s.setCircuit k fun c =>
    let c := if old = .display ∧ config.mode ≠ .display then c.stopFrames else c
    { c with config }
  match config.mode with
  | .off => s.setCircuit k fun c => { c with state := .off, gap := none }
  | .display =>
    let s := s.setCircuit k fun c => { c with state := .off, gap := none }
    if old = .display then s else s.sendFrame k
  | .minute | .half => s.decideCircuit k

/-! ## Resets (R122, R136) -/

/-- The clocks unit reset on one circuit: at once, or at the end of an impulse in flight; a display circuit restarts its
frames (R122, R136). -/
def State.resetCircuit (k : CircuitId) (s : State) : State :=
  if (s.circuit k).inFlight.isSome then s.setCircuit k fun c => { c with resetPending := true }
  else if (s.circuit k).config.mode = .display then (s.setCircuit k Circuit.stopFrames).sendFrame k
  else s.decideCircuit k

/-- UNIT_RESET of the clocks unit, and station reset on the clock circuit unit (R122). -/
def State.clocksReset (s : State) : State := forCircuits State.resetCircuit s

end Sys2Proof.Machine
end

