-- ==== Sys2Proof/Machine/Contacts.lean ====
section
/-! DEFINITION. Contact inputs: debounce, the change bits, the actions, and the inputs reset (R152 to R156). -/

namespace Sys2Proof.Machine

/-- The ms of tick a new level must hold to be seen (R153). -/
def debounceMs : Nat := 20

/-- A pin is sampled at a tick: the timer counts while the sample differs from the debounced level, and stands at 0
while it equals it (R153, log 9). -/
def Contact.sampled (pin : Bool) (c : Contact) : Contact :=
  { c with pin, timer := if pin = c.level then 0 else min debounceMs (c.timer + 1) }

/-- The debounce timer has reached 20 ms (R153). -/
def Contact.changeDue (c : Contact) : Bool := decide (debounceMs ≤ c.timer)

/-- The codes of the input functions (Formats). -/
def InputFunction.code : InputFunction → Byte
  | .none => 0
  | .drillStart => 1
  | .drillSilence => 2
  | .muster => 3
  | .allClear => 4
  | .panelAlarm => 5
  | .bellRing => 6
  | .general => 7

/-- The eight latched change bits, bit n for input n (R153). -/
def ContactUnit.changeBits (ci : ContactUnit) : Byte :=
  (List.finRange 8).foldl (fun acc n => if ci.inputs[n].changed then acc ||| BitVec.twoPow 8 n.val else acc) 0

/-- The change bits are cleared together (R153). -/
def ContactUnit.clearChanges (ci : ContactUnit) : ContactUnit :=
  { inputs := Vector.ofFn fun n => { ci.inputs[n] with changed := false } }

/-- Every pin is sampled at a tick; bit n is the level of CINn, 1 HIGH (R153). -/
def ContactUnit.sampled (contacts : BitVec 8) (ci : ContactUnit) : ContactUnit :=
  { inputs := Vector.ofFn fun n => ci.inputs[n].sampled (contacts.getLsbD n.val) }

/-- An input's action at a debounced change (R154). -/
def State.inputAction (n : InputId) (s : State) : State :=
  let c := s.input n
  let act := fun command => s.drillCommand command .input 0 none
  match c.function with
  | .none | .general => s
  | .panelAlarm => s.panelUpdate (some n)
  | .drillStart =>
    if c.standsActive then
      if s.dc.localStart then act .start
      else s.onDc fun dc => { dc with localRefused := satInc dc.localRefused }
    else s
  | .drillSilence => if c.standsActive then act .silence else s
  | .muster => if c.standsActive then act .muster else s
  | .allClear => if c.standsActive then act .allClear else s
  | .bellRing => if c.standsActive then s.inputBell c.pattern c.zones else s

/-- A debounced change: the level, the change bit, INPUT_CHANGE and the action (R153). -/
def State.inputChange (n : InputId) (s : State) : State :=
  let s := s.setInput n fun c => { c with level := c.pin, timer := 0, changed := true }
  let c := s.input n
  let s := s.post flagInputChange
    [byteNat n.val, if c.level then 1 else 0, c.function.code, s.ci.changeBits]
  s.inputAction n

/-- The inputs reset: levels inactive, timers 0, change bits clear; the records are kept (R156). -/
def ContactUnit.unitReset (ci : ContactUnit) : ContactUnit :=
  { inputs := Vector.ofFn fun n =>
      { ci.inputs[n] with level := !ci.inputs[n].activeHigh, timer := 0, changed := false } }

/-- UNIT_RESET of the inputs unit: the panel condition is worked out again (R156). -/
def State.inputsUnitReset (s : State) : State :=
  ({ s with ci := s.ci.unitReset } : State).panelUpdate none

end Sys2Proof.Machine
end

