-- ==== Sys2Proof/Machine/Time.lean ====
section
/-! DEFINITION. The time base: the tick, beacons, holdover, and its reset (R3 to R20). -/

namespace Sys2Proof.Machine

/-! ## The tick (R3 to R6) -/

/-- The tick count and the boundary phase at a tick (R3). -/
def TimeBase.counted (tb : TimeBase) : TimeBase :=
  { tb with tick := tb.tick + 1, phase := (tb.phase + 1) % 100,
            lossTimer := if tb.state = .unset then tb.lossTimer else timerUp tb.lossTimer }

/-- The advance of M at a tick, in ms (R4). -/
def TimeBase.advance (tb : TimeBase) : Nat :=
  if tb.phase = 0 then (if 0 < tb.slew then 2 else if tb.slew < 0 then 0 else 1) else 1

/-- The slew remainder after a tick (R4). -/
def TimeBase.slewAfter (tb : TimeBase) : Int :=
  if tb.phase = 0 then (if 0 < tb.slew then tb.slew - 1 else if tb.slew < 0 then tb.slew + 1 else tb.slew) else tb.slew

/-- Campus time n ms on, carrying into the next day and weekday (R5). -/
def CampusTime.plus (t : CampusTime) (n : Nat) : CampusTime :=
  if dayMs ≤ t.ms + n then { day := t.day + 1, weekday := t.weekday + 1, ms := t.ms + n - dayMs }
  else { t with ms := t.ms + n }

/-- The advance carried into the next day (R5, R6). -/
def CampusTime.carries (t : CampusTime) (n : Nat) : Bool := decide (dayMs ≤ t.ms + n)

/-- Local time at a tick: the advance, and the time advance it delivers to the bell sequencer and the clock circuit unit
(R4 to R6). -/
def State.advanceTime (s : State) : State :=
  if s.tb.state = .unset then s
  else
    let before := s.tb.now
    let n := s.tb.advance
    let s := s.onTb fun tb => { tb with now := tb.now.plus n, slew := tb.slewAfter }
    if n = 0 then s
    else (s.bellAdvance before.instant s.tb.now.instant (before.carries n)).clockAdvance before

/-- Every interval the blocks count on the tick, one ms on: pattern phases (R49), ramps (R73), playout and last-audio
timers (R103, R105), impulses, gaps and frames (R116, R127), replay spacing (R60), the ms DOWN (R158). -/
def State.countIntervals (s : State) : State :=
  { s with
    bo := { s.bo with players := Vector.ofFn fun z => s.bo.players[z].ticked },
    za := { s.za with zones := Vector.ofFn fun z => s.za.zones[z].ticked },
    au := { s.au with slots := Vector.ofFn fun n => s.au.slots[n].ticked },
    cc := { s.cc with circuits := Vector.ofFn fun k => s.cc.circuits[k].ticked },
    bs := { s.bs with spacing := s.bs.spacing - 1 },
    li := { s.li with downMs := if s.li.sync = .down then min 4294967295 (s.li.downMs + 1) else s.li.downMs } }

/-- The advance of local time that a counted tick still owes, if any (R4 to R6, log 4). -/
def State.tickAdvance (s : State) : State :=
  if s.tb.advanceDue then (s.onTb fun tb => { tb with advanceDue := false }).advanceTime else s

/-- The counting of a tick: the tick count and phase, every interval, and the contact samples; its advance of local time is
then owed. An advance that the tick before still owed comes first (R3, R153, log 4). -/
def State.tickCount (contacts : BitVec 8) (s : State) : State :=
  let s := (s.tickAdvance.onTb fun tb => { tb.counted with advanceDue := true }).countIntervals
  { s with ci := s.ci.sampled contacts }

/-- What a TICK command brings about (R3 to R6, R153, log 4). -/
def State.tickPart (part : TickPart) (s : State) : State :=
  match part with
  | .whole contacts => (s.tickCount contacts).tickAdvance
  | .count contacts => s.tickCount contacts
  | .advance => s.tickAdvance

/-! ## Beacons (R7 to R13) -/

/-- The compensation in ms: floor((δ + 500) / 1000) (R8). -/
def TimeBase.compensation (tb : TimeBase) : Nat := (tb.delayComp + 500) / 1000

/-- A beacon is malformed when Mb is 86,400,000 or more, or Wb is above 6 (R7). -/
def beaconMalformed (c : BeaconCell) : Bool := decide (dayMs ≤ c.ms.toNat) || decide (6 < c.weekday.toNat)

/-- The compensated master time (Dh, Wh, Mh) of a valid beacon (R8). -/
def TimeBase.masterTime (tb : TimeBase) (c : BeaconCell) : CampusTime :=
  CampusTime.plus { day := c.day, weekday := Fin.ofNat 7 c.weekday.toNat, ms := c.ms.toNat } tb.compensation

/-- The offset e: dd × 86,400,000 + (Mh − M) (R9). -/
def TimeBase.offset (tb : TimeBase) (master : CampusTime) : Int := master.instant.since tb.now.instant

/-- e saturated to −2,147,483,647..+2,147,483,647 (R12). -/
def saturateStep (e : Int) : Int := max (-2147483647) (min 2147483647 e)

/-- The first set (R10). -/
def State.firstSet (master : CampusTime) (s : State) : State :=
  let s := s.onTb fun tb => { tb with state := .locked, now := master, slew := 0, lossTimer := 0 }
  ((s.post flagTimeSet (be32 (BitVec.ofNat 32 master.ms))).bellFirstSet).decideAll

def directionOf (e : Int) : Direction := if 0 < e then .forward else if e < 0 then .backward else .none

/-- A step moves local time at once to the beacon's time (R12); TIME_STEP is posted before what the step's bells post
(log 36). -/
def State.timeStep (master : CampusTime) (e : Int) (s : State) : State :=
  let old := s.tb.now
  let kept := saturateStep e
  let s := s.onTb fun tb =>
    { tb with state := .locked, now := master, slew := 0, lossTimer := 0, keptStep := kept, stepCount := satInc tb.stepCount }
  let s := s.post flagTimeStep (be32 (BitVec.ofInt 32 kept))
  let dayMark := master.day != old.day || master.weekday != old.weekday
  (s.bellStep old.instant master.instant (directionOf e) dayMark).decideAll

/-- A slew sets the remainder from the beacon; a return from HOLDOVER is reported (R13). -/
def State.timeSlew (e : Int) (s : State) : State :=
  let back := s.tb.state == .holdover
  let s := s.onTb fun tb => { tb with state := .locked, lossTimer := 0, slew := e }
  if back then s.decideAll else s

/-- The decision between step and slew (R11). -/
def TimeBase.steps (tb : TimeBase) (stepFlag : Bool) (e : Int) : Bool :=
  stepFlag || decide ((tb.stepThreshold : Int) < |e|)

/-- A good BEACON cell at the time base (R7 to R13). -/
def State.takeBeacon (c : BeaconCell) (s : State) : State :=
  if beaconMalformed c then s.onTb fun tb => { tb with malformedCount := satInc tb.malformedCount }
  else
    let s := s.onTb fun tb => { tb with validCount := satInc tb.validCount }
    let master := s.tb.masterTime c
    if s.tb.state = .unset then s.firstSet master
    else
      let e := s.tb.offset master
      if s.tb.steps c.stepFlag e then s.timeStep master e else s.timeSlew e

/-! ## Holdover (R14, R17) -/

/-- In LOCKED the timer stands at or above the beacon-loss limit (R14, R17). -/
def TimeBase.lossDue (tb : TimeBase) : Bool := tb.state == .locked && decide (tb.lossLimit * 1000 ≤ tb.lossTimer)

/-- Entry to HOLDOVER (R14). -/
def State.enterHoldover (s : State) : State :=
  ((s.onTb fun tb => { tb with state := .holdover }).post flagHoldover (be32 (BitVec.ofNat 32 s.tb.now.ms))).decideAll

/-- A new step threshold bounds the current remainder (R16). -/
def TimeBase.setThreshold (t : Nat) (tb : TimeBase) : TimeBase :=
  { tb with stepThreshold := t, slew := max (-(t : Int)) (min (t : Int) tb.slew) }

/-! ## Reset (R19, R20) -/

/-- Station reset and the time unit reset clear the running correction (R19, R20). -/
def TimeBase.unitReset (tb : TimeBase) : TimeBase := { tb with slew := 0, lossTimer := 0 }

end Sys2Proof.Machine
end

