-- ==== Sys2Proof/Machine/Operands.lean ====
section
/-! DEFINITION. The fields a request's payload and a part carry, and the cells replies and notices are written as
(Formats, R165, R166, R171). -/

namespace Sys2Proof.Machine

/-- Payload byte i of a request (R165). -/
def payloadByte (c : MgmtCell) (i : Fin 30) : Byte := c.payload[i]

/-- A 2-byte payload field, most significant byte first. -/
def payloadWord (c : MgmtCell) (i j : Fin 30) : BitVec 16 := c.payload[i] ++ c.payload[j]

/-- The 4-byte value of WRITE_SETTING, payload bytes 1 to 4 (R166, R170). -/
def payloadValue (c : MgmtCell) : BitVec 32 :=
  (c.payload[1] ++ c.payload[2]) ++ (c.payload[3] ++ c.payload[4])

/-- The payload copied, as long as its length field says (R166). -/
def payloadCopy (c : MgmtCell) : List Byte := c.payload.toList.take c.length.toNat

/-- The part content of a WRITE_PART: the first 26 payload bytes (R171, log 14). -/
def payloadPart (c : MgmtCell) : Part := Vector.ofFn fun i => c.payload[i.val]

/-- The codes of the reply outcomes (R165). -/
def ReplyCode.code : ReplyCode → Byte
  | .ok => 0
  | .clamped => 1
  | .range => 2
  | .inUse => 3
  | .busy => 4
  | .field => 5
  | .unknown => 6

/-- OK and CLAMPED carry their payload; a refusal carries a payload of length 0 (R165). -/
def ReplyCode.carries : ReplyCode → Bool
  | .ok | .clamped => true
  | .range | .inUse | .busy | .field | .unknown => false

/-- The cell an outbound entry is written as (Formats); its subcode is 0 (log 39). -/
def Outbound.cell : Outbound → Cell
  | .reply station group transaction unit kind code payload =>
    sealCell (bodyOf ([headByte 7 0, station.setWidth 8, byteNat group.val, transaction, unit, kind, code.code,
      byteNat payload.length] ++ payload))
  | .notice station group flag snapshot =>
    sealCell (bodyOf ([headByte 8 0, station.setWidth 8, byteNat group.val, 255, byteNat flag.val] ++ snapshot))

/-- Byte i of part k of a staged entry, as a number (R171). -/
def partByte (parts : List Part) (k : Nat) (i : Fin 26) : Nat :=
  match parts[k]? with
  | some p => p[i].toNat
  | none => 0

/-- Two bytes of a part as a set or word, most significant first (R171). -/
def partWord (parts : List Part) (k : Nat) (i j : Fin 26) : BitVec 16 :=
  BitVec.ofNat 16 (partByte parts k i * 256 + partByte parts k j)

/-- A part's bytes, the rest of the 26 being 0 (R171). -/
def partOf (bytes : List Byte) : List Byte := (bytes ++ List.replicate 26 0).take 26

end Sys2Proof.Machine
end

