-- ==== Sys2Proof/Machine/Line.lean ====
section
/-! DEFINITION. The line interface: sync, damaged cells, forwarding, and outbound insertion (R157 to R164). -/

namespace Sys2Proof.Machine

/-- The cell sent on LOUT (R157). -/
def State.sendOut (c : Cell) (s : State) : State := s.onLi fun li => { li with out := c }

/-- A good cell received while UP: missing starts set to 0, and the good cells count (R158, R161). -/
def LineInterface.countGood (li : LineInterface) : LineInterface :=
  { li with missing := 0, goodCells := satInc li.goodCells }

/-- A slot of R163: the head of the outbound queue with a fresh check, or the cell that goes out when the queue is
empty. -/
def State.fillSlot (empty : Cell) (s : State) : State :=
  match s.mu.queue with
  | [] => s.sendOut empty
  | e :: rest =>
    ((s.onMu fun mu => { mu with queue := rest }).onLi fun li => { li with sent := satInc li.sent }).sendOut e.cell

/-- The good cells that bring the line UP (R158). -/
def syncCells : Nat := 8

/-- A complete cell with a correct check at a start on time while DOWN; the eighth brings the line UP (R158). -/
def State.syncGood (s : State) : State :=
  let good := s.li.good + 1
  if good < syncCells then s.onLi fun li => { li with good }
  else
    (s.onLi fun li => { li with good, sync := .up, missing := 0, downMs := 0 }).post flagLineUp
      (be32 (BitVec.ofNat 32 s.li.downMs))

/-- A damaged cell, a short cell or a missing start while DOWN (R158). -/
def LineInterface.syncLost (li : LineInterface) : LineInterface := { li with good := 0 }

/-- A good cell handed to its block and forwarded unchanged (R161, R162). While DOWN a cell is neither handed on nor
forwarded, and the row that counts it toward sync is SYNC_CELL (R158, log 3). -/
def State.receive (c : Cell) (act : State → State) (s : State) : State :=
  if s.li.sync = .down then s
  else (act (s.onLi LineInterface.countGood)).sendOut c

/-- A good EMPTY cell: forwarded as it came, or filled from the outbound queue (R162, R163). -/
def State.receiveEmpty (c : Cell) (s : State) : State :=
  if s.li.sync = .down then s
  else (s.onLi LineInterface.countGood).fillSlot c

/-- The error log at a damaged cell: an entry when the log is empty, and else the more mark (R160). -/
def State.logDamage (c : Cell) (s : State) : State :=
  match s.mu.log with
  | some _ => s.onMu fun mu => { mu with more := true }
  | none =>
    let computed := crc16 c.body.toList
    (s.onMu fun mu =>
      { mu with log := some { bytes := c.body.toList.take 8, received := c.check, computed } }).post
      flagDamagedCell (be16 c.check ++ be16 computed)

/-- A damaged cell: forwarded unacted, counted and logged while UP; while DOWN it sets the good cells to 0 (R158,
R160). A cell whose check is right is no damaged cell (log 11). -/
def State.damaged (c : Cell) (s : State) : State :=
  if cellGood c then s
  else if s.li.sync = .down then s.onLi LineInterface.syncLost
  else
    ((s.onLi fun li => { li with missing := 0, damagedCells := satInc li.damagedCells }).logDamage c).sendOut c

/-- A cell start ends the cell in transit short: an EMPTY cell is sent in its place (R157, R158). -/
def State.short (s : State) : State :=
  if s.li.sync = .down then s.onLi LineInterface.syncLost
  else s.onLi fun li => { li with missing := 0, shortCells := satInc li.shortCells, out := emptyCell }

/-- An expected cell start does not come (R158); LINE_DOWN carries the sync losses count and the number of entries in
the outbound queue. -/
def State.missedStart (s : State) : State :=
  if s.li.sync = .down then s.onLi LineInterface.syncLost
  else if s.li.missing + 1 < 4 then s.onLi fun li => { li with missing := li.missing + 1, out := emptyCell }
  else
    let s := s.onLi fun li =>
      { li with missing := li.missing + 1, sync := .down, good := 0, downMs := 0, syncLosses := satInc li.syncLosses,
                out := emptyCell }
    s.post flagLineDown (be16 s.li.syncLosses ++ [byteNat s.mu.queue.length, 0])

/-- A cell received while DOWN (R158): a good one on time counts toward sync, a damaged one sets the count to 0. While UP it
is a cell start received alone, whose cell is then cut off with no start after it: it sets the missing starts to 0 (R158,
log 10). -/
def State.syncReceived (onTime : Bool) (c : Cell) (s : State) : State :=
  if s.li.sync = .up then s.onLi fun li => { li with missing := 0 }
  else if cellGood c then (if onTime then s.syncGood else s)
  else s.onLi LineInterface.syncLost

/-- While DOWN an EMPTY cell is sent on the station's own timing (R158). -/
def State.sourceEmpty (s : State) : State :=
  if s.li.sync = .up then s else s.sendOut emptyCell

/-- A good cell of kind 9..15 is counted (R161). -/
def State.countUnknown (s : State) : State := s.onLi fun li => { li with unknownKind := satInc li.unknownKind }

end Sys2Proof.Machine
end

