-- ==== Sys2Proof/Machine/Settings.lean ====
section
/-! DEFINITION. The settings of every unit: numbers, ranges, values, and how a write acts (R170, with R16, R17, R42, R66,
R87, R105, R108, R143, R151). -/

namespace Sys2Proof.Machine

/-- The settings of R170. -/
inductive Setting where
  | group | noticeMask
  | stepThreshold | lossLimit | delayComp
  | lateGrace | replayPolicy | replaySpacing | replayAge
  | sessionTimeout | chimeGain
  | soundLimit | drillGain | drillZones | localStart
deriving DecidableEq, Repr

/-- The setting of a unit and number, or none when it is unknown (R170). -/
def settingOf (unit number : Nat) : Option Setting :=
  match unit, number with
  | 0, 0 => some .group
  | 0, 1 => some .noticeMask
  | 1, 0 => some .stepThreshold
  | 1, 1 => some .lossLimit
  | 1, 2 => some .delayComp
  | 2, 0 => some .lateGrace
  | 2, 1 => some .replayPolicy
  | 2, 2 => some .replaySpacing
  | 2, 3 => some .replayAge
  | 4, 0 => some .sessionTimeout
  | 4, 1 => some .chimeGain
  | 6, 0 => some .soundLimit
  | 6, 1 => some .drillGain
  | 6, 2 => some .drillZones
  | 6, 3 => some .localStart
  | _, _ => none

/-- The range of a setting: lowest and highest value (R170 and each unit's chapter). -/
def Setting.range : Setting → Nat × Nat
  | .group => (0, 15)
  | .noticeMask => (0, 65535)
  | .stepThreshold => (100, 60000)
  | .lossLimit => (3, 255)
  | .delayComp => (0, 65535)
  | .lateGrace => (0, 300)
  | .replayPolicy => (0, 2)
  | .replaySpacing => (2, 30)
  | .replayAge => (0, 3600)
  | .sessionTimeout => (1, 10)
  | .chimeGain => (0, 80)
  | .soundLimit => (30, 900)
  | .drillGain => (0, 80)
  | .drillZones => (0, 65535)
  | .localStart => (0, 1)

/-- The value a write takes: the nearest limit when it lies outside the range (R170). -/
def Setting.taken (k : Setting) (v : Nat) : Nat := clampTo k.range.1 k.range.2 v

/-- The codes of the replay policy (R170). -/
def ReplayPolicy.code : ReplayPolicy → Nat
  | .none => 0
  | .latest => 1
  | .all => 2

def replayPolicyOf (v : Nat) : ReplayPolicy :=
  match v with
  | 0 => .none
  | 1 => .latest
  | _ => .all

/-- The value of a setting (R170). -/
def Setting.read (k : Setting) (s : State) : Nat :=
  match k with
  | .group => s.mu.group.val
  | .noticeMask => s.mu.mask.toNat
  | .stepThreshold => s.tb.stepThreshold
  | .lossLimit => s.tb.lossLimit
  | .delayComp => s.tb.delayComp
  | .lateGrace => s.bs.lateGrace
  | .replayPolicy => s.bs.replayPolicy.code
  | .replaySpacing => s.bs.replaySpacing
  | .replayAge => s.bs.replayAge
  | .sessionTimeout => s.au.sessionTimeout
  | .chimeGain => s.au.chimeGain
  | .soundLimit => s.dc.soundLimit
  | .drillGain => s.dc.drillGain
  | .drillZones => s.drillZones.toNat
  | .localStart => if s.dc.localStart then 1 else 0

/-- Every zone owned by DRILL with a source takes its target again (R87). -/
def Floor.retargetSource (source : DrillSource) (f : Floor) : Floor :=
  forZones allZones
    (fun z f =>
      if (f.zone z).owner = .drill ∧ (f.zone z).drillSource = some source then f.retarget z else f) f

/-- A slot whose timer already stands at or above the session timeout times out at the write (R105). -/
def State.timeoutDueSlots (s : State) : State :=
  forSlots (fun n s => if s.au.timeoutDue n then s.timeoutSlot n else s) s

/-- A written drill zones setting sets each zone's in-drill-zones field (R69). -/
def State.setDrillZones (zones : ZoneSet) (s : State) : State :=
  { s with za := { zones := Vector.ofFn fun z => { s.za.zones[z] with inDrill := memSet z zones } } }

/-- A setting takes a value of its range and acts by its unit's rule (R170). -/
def Setting.write (k : Setting) (v : Nat) (s : State) : State :=
  match k with
  | .group => s.onMu fun mu => { mu with group := Fin.ofNat 16 v }
  | .noticeMask => s.onMu fun mu => { mu with mask := BitVec.ofNat 16 v }
  | .stepThreshold => s.onTb (TimeBase.setThreshold v)
  | .lossLimit =>
    let s := s.onTb fun tb => { tb with lossLimit := v }
    if s.tb.lossDue then s.enterHoldover else s
  | .delayComp => s.onTb fun tb => { tb with delayComp := v }
  | .lateGrace => s.onBs fun bs => { bs with lateGrace := v }
  | .replayPolicy => s.onBs fun bs => { bs with replayPolicy := replayPolicyOf v }
  | .replaySpacing => s.onBs fun bs => { bs with replaySpacing := v }
  | .replayAge => s.onBs fun bs => { bs with replayAge := v }
  | .sessionTimeout => (s.onAu fun au => { au with sessionTimeout := v }).timeoutDueSlots
  | .chimeGain => (s.onAu fun au => { au with chimeGain := v }).onFloor (Floor.retargetSource .allClear)
  | .soundLimit =>
    let s := s.onDc fun dc => { dc with soundLimit := v }
    if s.soundLimitDue then s.drillSilenced .soundLimit else s
  | .drillGain => (s.onDc fun dc => { dc with drillGain := v }).onFloor (Floor.retargetSource .evac)
  | .drillZones => s.setDrillZones (BitVec.ofNat 16 v)
  | .localStart => s.onDc fun dc => { dc with localStart := v == 1 }

end Sys2Proof.Machine
end

