-- ==== Sys2Proof/Machine/Tables.lean ====
section
/-! DEFINITION. The tables of the table cursor: parts, checks, commits and clears (R24 to R27, R47, R86, R120, R125,
R152, R171). -/

namespace Sys2Proof.Machine

/-! ## Codes, windows and parts (R171) -/

def Table.code : Table → Byte
  | .plan n => byteNat n.val
  | .dayMap => 8
  | .except => 9
  | .pattern => 10
  | .zone => 11
  | .circuit => 12
  | .input => 13

def tableOf (code : Nat) : Option Table :=
  if h : code < 8 then some (.plan ⟨code, h⟩)
  else
    match code with
    | 8 => some .dayMap
    | 9 => some .except
    | 10 => some .pattern
    | 11 => some .zone
    | 12 => some .circuit
    | 13 => some .input
    | _ => none

/-- The number of indexes of a table's window, which begins at 0. -/
def Table.window : Table → Nat
  | .plan _ => 48
  | .dayMap => 7
  | .except => 32
  | .pattern => 16
  | .zone => 16
  | .circuit => 4
  | .input => 8

/-- The number of parts of an entry. -/
def Table.parts : Table → Nat
  | .plan _ => 3
  | .dayMap => 1
  | .except | .pattern | .zone | .circuit | .input => 2

/-- The bytes a WRITE_PART needs for the part at the cursor, by the part table of R171. -/
def Table.needs (t : Table) (part : Nat) : Nat :=
  match t, part with
  | .plan _, 0 => 4
  | .plan _, 1 => 3
  | .plan _, _ => 2
  | .dayMap, _ => 1
  | .except, 0 => 3
  | .except, _ => 1
  | .pattern, 0 => 3
  | .pattern, _ => 1
  | .zone, _ => 2
  | .circuit, 0 => 3
  | .circuit, _ => 6
  | .input, 0 => 2
  | .input, _ => 3

/-! ## Field codes (R171) -/

def Action.code : Action → Byte
  | .bell => 0
  | .chime => 1
  | .mark => 2

def actionOf (code : Nat) : Option Action :=
  match code with
  | 0 => some .bell
  | 1 => some .chime
  | 2 => some .mark
  | _ => none

/-- A label 0..99, 255 absent; any other code is none (R24). -/
def labelOf (code : Nat) : Option (Option Nat) :=
  if code ≤ 99 then some (some code) else if code = 255 then some none else none

/-- A plan 0..7, 255 NO_BELLS; any other code is none (R26, R27). -/
def planChoiceOf (code : Nat) : Option PlanChoice :=
  if h : code < 8 then some (some ⟨code, h⟩) else if code = 255 then some none else none

def PlanChoice.code : PlanChoice → Byte
  | some n => byteNat n.val
  | none => 255

/-- A pattern index 0..15; any other code is none. -/
def patternOf (code : Nat) : Option (Fin 16) := if h : code < 16 then some ⟨code, h⟩ else none

def CircuitMode.code : CircuitMode → Byte
  | .off => 0
  | .minute => 1
  | .half => 2
  | .display => 3

def modeOf (code : Nat) : Option CircuitMode :=
  match code with
  | 0 => some .off
  | 1 => some .minute
  | 2 => some .half
  | 3 => some .display
  | _ => none

def RegionA.code : RegionA → Byte
  | .hhmm24 => 0
  | .hhmm12 => 1
  | .hhmmss => 2

def regionAOf (code : Nat) : Option RegionA :=
  match code with
  | 0 => some .hhmm24
  | 1 => some .hhmm12
  | 2 => some .hhmmss
  | _ => none

def RegionB.code : RegionB → Byte
  | .blank => 0
  | .remain => 1
  | .label => 2
  | .seconds => 3

def regionBOf (code : Nat) : Option RegionB :=
  match code with
  | 0 => some .blank
  | 1 => some .remain
  | 2 => some .label
  | 3 => some .seconds
  | _ => none

def functionOf (code : Nat) : Option InputFunction :=
  match code with
  | 0 => some .none
  | 1 => some .drillStart
  | 2 => some .drillSilence
  | 3 => some .muster
  | 4 => some .allClear
  | 5 => some .panelAlarm
  | 6 => some .bellRing
  | 7 => some .general
  | _ => none

/-- An active level, LOW 0 or HIGH 1, as whether it is HIGH. -/
def levelOf (code : Nat) : Option Bool :=
  match code with
  | 0 => some false
  | 1 => some true
  | _ => none

def byteBool (b : Bool) : Byte := if b then 1 else 0

/-! ## Staged entries, checked -/

/-- A staged PLANn entry, or none where R24 refuses it FIELD: a valid field of no is committed as an empty slot, with
nothing else checked. -/
def planEventOf (parts : List Part) : Option PlanEvent :=
  if partByte parts 0 0 = 0 then some PlanEvent.empty
  else
    let time := (partByte parts 0 1 * 256 + partByte parts 0 2) * 256 + partByte parts 0 3
    match actionOf (partByte parts 1 2), patternOf (partByte parts 2 0), labelOf (partByte parts 2 1) with
    | some action, some pattern, some label =>
      if 86399 < time then none
      else some { valid := true, time, zones := partWord parts 1 0 1, action, pattern, label }
    | _, _, _ => none

/-- A staged EXCEPT entry (R27). -/
def exceptionOf (parts : List Part) : Option Exception :=
  if partByte parts 0 0 = 0 then some Exception.empty
  else (planChoiceOf (partByte parts 1 0)).map fun plan => { valid := true, day := partWord parts 0 1 2, plan }

/-- A staged PATTERN record (R47). -/
def patternRecordOf (parts : List Part) : Option Pattern :=
  let lead := partByte parts 0 0
  let a := partByte parts 0 1
  let b := partByte parts 0 2
  let strokes := partByte parts 1 0
  if 50 < lead ∨ 7 < a ∨ 3 < b ∨ 63 < strokes then none else some { lead := lead * 100, a, b, strokes }

/-- The configuration part of a zone record (R69). -/
structure ZoneConfig where
  enabled : Bool
  inDrill : Bool
  maxGain : Nat
  defaultGain : Nat
deriving DecidableEq, Repr

/-- The power-on values of R69. -/
def ZoneConfig.initial : ZoneConfig := { enabled := true, inDrill := true, maxGain := 80, defaultGain := 60 }

/-- A staged ZONE record (R86). -/
def zoneConfigOf (parts : List Part) : Option ZoneConfig :=
  let maxGain := partByte parts 1 0
  let defaultGain := partByte parts 1 1
  if 80 < maxGain ∨ 80 < defaultGain then none
  else some { enabled := partByte parts 0 0 != 0, inDrill := partByte parts 0 1 != 0, maxGain, defaultGain }

/-- A staged CIRCUIT record (R120, R125). -/
def circuitConfigOf (parts : List Part) : Option CircuitConfig :=
  let width := partByte parts 0 1
  let hold := partByte parts 0 2
  let split := partByte parts 1 0
  let drillSplit := partByte parts 1 3
  match modeOf (partByte parts 0 0), regionAOf (partByte parts 1 1), regionBOf (partByte parts 1 2) with
  | some mode, some regionA, some regionB =>
    if width = 0 ∨ 20 < width ∨ 120 < hold ∨ 8 < split ∨ 8 < drillSplit then none
    else
      some { mode, width := width * 100, hold, split, regionA, regionB, drillSplit, linked := partWord parts 1 4 5 }
  | _, _, _ => none

/-- The configuration of an input record (R152). -/
structure ContactConfig where
  function : InputFunction
  activeHigh : Bool
  pattern : Fin 16
  zones : ZoneSet
deriving DecidableEq, Repr

/-- The power-on values of R152. -/
def ContactConfig.initial : ContactConfig := { function := .none, activeHigh := false, pattern := 0, zones := 0 }

/-- A staged INPUT record (R152). -/
def contactConfigOf (parts : List Part) : Option ContactConfig :=
  match functionOf (partByte parts 0 0), levelOf (partByte parts 0 1), patternOf (partByte parts 1 0) with
  | some function, some activeHigh, some pattern =>
    some { function, activeHigh, pattern, zones := partWord parts 1 1 2 }
  | _, _, _ => none

/-! ## Committed entries -/

/-- A slot of a plan is replaced (R24). -/
def State.commitPlan (n : Fin 8) (i : Fin 48) (e : PlanEvent) (s : State) : State :=
  s.onBs fun bs => { bs with plans := bs.plans.set n (bs.plans[n].set i e) }

/-- A day map entry is replaced, and plan selection is redone (R26). -/
def State.commitDayMap (i : Fin 7) (p : PlanChoice) (s : State) : State :=
  (s.onBs fun bs => { bs with dayMap := bs.dayMap.set i p }).reselect

/-- An exception slot is replaced, and plan selection is redone (R27). -/
def State.commitException (i : Fin 32) (e : Exception) (s : State) : State :=
  (s.onBs fun bs => { bs with exceptions := bs.exceptions.set i e }).reselect

/-- A pattern record is replaced (R47). -/
def State.commitPattern (i : Fin 16) (p : Pattern) (s : State) : State :=
  { s with bo := { s.bo with patterns := s.bo.patterns.set i p } }

/-- The configuration part of a zone record is replaced. -/
def ZoneRec.configured (g : ZoneConfig) (r : ZoneRec) : ZoneRec :=
  { r with enabled := g.enabled, inDrill := g.inDrill, maxGain := g.maxGain, defaultGain := g.defaultGain }

/-- A zone record is committed: a zone that goes disabled leaves the drill's hold and is cleared, a zone that goes
enabled may join the seized set, and a change of gains alone sets the target again (R86, R87, R139). -/
def State.commitZone (z : Zone) (g : ZoneConfig) (s : State) : State :=
  let was := (s.zone z).enabled
  let set := fun (s : State) => s.onFloor fun f => f.setZone z (ZoneRec.configured g)
  if was && !g.enabled then
    set ((s.onDc fun dc => { dc with seized := eraseZone z dc.seized }).onFloor (Floor.disable z))
  else if !was && g.enabled then (set s).joinSeized z
  else (set s).onFloor (Floor.retarget z)

/-- The configuration of an input record is replaced. -/
def Contact.configured (g : ContactConfig) (c : Contact) : Contact :=
  { c with function := g.function, activeHigh := g.activeHigh, pattern := g.pattern, zones := g.zones }

/-- An input record is committed, and the panel condition is worked out again (R152). -/
def State.commitInput (n : InputId) (g : ContactConfig) (s : State) : State :=
  (s.setInput n (Contact.configured g)).panelUpdate none

/-- A checked entry is committed, or refused FIELD. -/
def commitOr {α : Type} (e : Option α) (commit : α → State → State) (s : State) : ReplyCode × State :=
  match e with
  | some e => (.ok, commit e s)
  | none => (.field, s)

/-- A write or clear of a slot of today's active plan is refused IN_USE (R25). -/
def State.planInUse (n : Fin 8) (s : State) : Bool := s.bs.selection == .plan n

/-- The entry of a table at an index of its window, committed by its table's rule or refused (R171): `planEntry` to
`inputEntry` give the entry for each table. -/
structure Entries where
  plan : Option PlanEvent
  dayMap : Option PlanChoice
  except : Option Exception
  pattern : Option Pattern
  zone : Option ZoneConfig
  circuit : Option CircuitConfig
  input : Option ContactConfig

/-- The staged parts, read as an entry of each table. -/
def Entries.staged (parts : List Part) : Entries :=
  { plan := planEventOf parts, dayMap := planChoiceOf (partByte parts 0 0), except := exceptionOf parts,
    pattern := patternRecordOf parts, zone := zoneConfigOf parts, circuit := circuitConfigOf parts,
    input := contactConfigOf parts }

/-- The entries a CLEAR_ENTRY commits (R24, R26, R27, R47, R86, R120, R152). -/
def Entries.cleared : Entries :=
  { plan := some PlanEvent.empty, dayMap := some none, except := some Exception.empty, pattern := some Pattern.silent,
    zone := some ZoneConfig.initial, circuit := some CircuitConfig.initial, input := some ContactConfig.initial }

/-- The commit of an entry at an index, by its table's rule: R24, R26, R27, R47, R86, R120 or R152. -/
def State.commitEntry (t : Table) (index : Nat) (e : Entries) (s : State) : ReplyCode × State :=
  match t with
  | .plan n =>
    if s.planInUse n then (.inUse, s) else commitOr e.plan (State.commitPlan n (Fin.ofNat 48 index)) s
  | .dayMap => commitOr e.dayMap (State.commitDayMap (Fin.ofNat 7 index)) s
  | .except => commitOr e.except (State.commitException (Fin.ofNat 32 index)) s
  | .pattern => commitOr e.pattern (State.commitPattern (Fin.ofNat 16 index)) s
  | .zone => commitOr e.zone (State.commitZone (Fin.ofNat 16 index)) s
  | .circuit =>
    if (s.circuit (Fin.ofNat 4 index)).inFlight.isSome then (.busy, s)
    else commitOr e.circuit (State.commitCircuit (Fin.ofNat 4 index)) s
  | .input => commitOr e.input (State.commitInput (Fin.ofNat 8 index)) s

/-! ## Reading a part (R171) -/

/-- The content of a part of an entry as it stands in the table, 26 bytes (R171, log 14). -/
def State.partContent (t : Table) (index part : Nat) (s : State) : List Byte :=
  partOf
    (match t with
     | .plan n =>
       let e := s.bs.plans[n][(Fin.ofNat 48 index)]
       (match part with
        | 0 => byteBool e.valid :: be24 (BitVec.ofNat 24 e.time)
        | 1 => be16 e.zones ++ [e.action.code]
        | _ => [byteNat e.pattern.val, byteNat (e.label.getD 255)])
     | .dayMap => [PlanChoice.code s.bs.dayMap[(Fin.ofNat 7 index)]]
     | .except =>
       let e := s.bs.exceptions[(Fin.ofNat 32 index)]
       if part = 0 then byteBool e.valid :: be16 e.day else [PlanChoice.code e.plan]
     | .pattern =>
       let p := s.bo.patterns[(Fin.ofNat 16 index)]
       if part = 0 then [byteNat (p.lead / 100), byteNat p.a, byteNat p.b] else [byteNat p.strokes]
     | .zone =>
       let r := s.zone (Fin.ofNat 16 index)
       if part = 0 then [byteBool r.enabled, byteBool r.inDrill] else [byteNat r.maxGain, byteNat r.defaultGain]
     | .circuit =>
       let c := (s.circuit (Fin.ofNat 4 index)).config
       if part = 0 then [c.mode.code, byteNat (c.width / 100), byteNat c.hold]
       else [byteNat c.split, c.regionA.code, c.regionB.code, byteNat c.drillSplit] ++ be16 c.linked
     | .input =>
       let c := s.input (Fin.ofNat 8 index)
       if part = 0 then [c.function.code, byteBool c.activeHigh] else byteNat c.pattern.val :: be16 c.zones)

/-! ## The cursor (R171) -/

/-- The cursor moved to the next index, part 0. -/
def Cursor.nextIndex (c : Cursor) : Cursor := { c with index := c.index + 1, part := 0 }

/-- The cursor moved to the next part, and after an entry's last to the next index. -/
def Cursor.nextPart (c : Cursor) : Cursor :=
  if c.part + 1 < c.table.parts then { c with part := c.part + 1 } else c.nextIndex

/-- The cursor index lies past the end of the window. -/
def Cursor.pastEnd (c : Cursor) : Bool := decide (c.table.window ≤ c.index)

def ManagementUnit.setCursor (cursor : Cursor) (staged : List Part) (mu : ManagementUnit) : ManagementUnit :=
  { mu with cursor, staged }

/-- The cursor as a reply shows it: table, index, part (R166). -/
def Cursor.bytes (c : Cursor) : List Byte := [c.table.code, byteNat c.index, byteNat c.part]

end Sys2Proof.Machine
end

