-- ==== Sys2Proof/Machine/Pages.lean ====
section
/-! DEFINITION. The pages of READ_PAGE (R172, with R21, R44, R68, R90, R124, R137, R149, R153). -/

namespace Sys2Proof.Machine

/-- A page is 30 bytes: its fields in order from byte 0, and the rest 0 (R172). -/
def pageOf (bytes : List Byte) : List Byte := (bytes ++ List.replicate 30 0).take 30

/-- The places of pages whose field can hold no value while Management gives that field no form (log 30). -/
inductive Blank where
  | markDay | nextDay | startDay | silence | muster | polarity | kindSource | number | musters | endElapsed
  | deferred | lost | log
deriving DecidableEq, Repr

/-- The first byte number of a place: three bytes to each, and twelve to the error log. -/
def Blank.base : Blank → Nat
  | .markDay => 0
  | .nextDay => 3
  | .startDay => 6
  | .silence => 9
  | .muster => 12
  | .polarity => 15
  | .kindSource => 18
  | .number => 21
  | .musters => 24
  | .endElapsed => 27
  | .deferred => 30
  | .lost => 33
  | .log => 36

/-- The n bytes shown at a place whose field holds no value: free values (log 30). -/
def blankBytes (b : Blank) (n : Nat) (now : Tick) : List Byte :=
  (List.range n).map fun i => Config.unshown (b.base + i) now

/-- An instant as a day number and ms; an absent one has ms 0xFFFFFFFF (R172), and its day is a free value (log 30). -/
def instantBytes (b : Blank) (now : Tick) (t : Option Instant) : List Byte :=
  match t with
  | some t => be16 t.day ++ be32 (BitVec.ofNat 32 t.ms)
  | none => blankBytes b 2 now ++ be32 0xFFFFFFFF

/-- An elapsed time of 3 bytes; the bytes of an absent one are free values (log 30). -/
def elapsedBytes (b : Blank) (now : Tick) (e : Option Nat) : List Byte :=
  match e with
  | some e => be24 (BitVec.ofNat 24 e)
  | none => blankBytes b 3 now

/-- Bits from the most significant as one byte. -/
def bits8 (b7 b6 b5 b4 b3 b2 b1 b0 : Bool) : Byte :=
  BitVec.ofBoolListBE [b7, b6, b5, b4, b3, b2, b1, b0]

def TimeState.code : TimeState → Byte
  | .unset => 0
  | .locked => 1
  | .holdover => 2

/-- Page 0: vendor code, part code, revision, station, group, restart cause. -/
def State.page0 (s : State) : List Byte :=
  [Config.vendorCode] ++ be16 Config.partCode ++
    [Config.revision, s.mu.station.setWidth 8, byteNat s.mu.group.val, s.mu.cause.code]

/-- Page 1: the error log (R160); the bytes of an entry that is not present are free values (log 30). -/
def State.page1 (s : State) : List Byte :=
  match s.mu.log with
  | some e => [1, byteBool s.mu.more] ++ e.bytes ++ be16 e.received ++ be16 e.computed
  | none => [0, byteBool s.mu.more] ++ blankBytes .log 12 s.tb.tick

/-- Page 2: event flags, notice mask, queue entries. -/
def State.page2 (s : State) : List Byte :=
  be16 s.mu.flags ++ be16 s.mu.mask ++ [byteNat s.mu.queue.length]

/-- Page 3: time status (R21). -/
def State.page3 (s : State) : List Byte :=
  let tb := s.tb
  let known := tb.state != .unset
  [tb.state.code] ++ be16 (if known then tb.now.day else 0) ++ [if known then byteNat tb.now.weekday.val else 0] ++
    be32 (if known then BitVec.ofNat 32 tb.now.ms else 0) ++ be32 (BitVec.ofInt 32 tb.slew) ++
    be32 (BitVec.ofInt 32 tb.keptStep) ++ be24 (BitVec.ofNat 24 tb.lossTimer) ++ be16 (BitVec.ofNat 16 tb.stepThreshold)

def Selection.code : Selection → Byte
  | .plan n => byteNat n.val
  | .noBells => 254
  | .none => 255

def Source.code : Source → Byte
  | .slot n => byteNat n.val
  | .dayMap => 32
  | .none => 255

/-- Page 4: bell status (R44, R68); the next event is that of the full-set lookahead. -/
def State.page4 (s : State) : List Byte :=
  let bs := s.bs
  [bs.selection.code, bs.source.code] ++ instantBytes .markDay s.tb.tick bs.mark ++
    instantBytes .nextDay s.tb.tick ((s.lookahead allZones).map Prod.fst) ++ [byteNat bs.pendingBells.length] ++
    (match bs.pendingBells with
     | p :: _ => p.id :: (be16 p.due.day ++ be32 (BitVec.ofNat 32 p.due.ms))
     | [] => 0 :: (be16 0 ++ be32 0xFFFFFFFF)) ++
    [byteNat bs.deferred.length, bits8 false false false false false false (bs.replay == .running) bs.marker] ++
    be16 (BitVec.ofNat 16 bs.spacing)

/-- NONE 0, SLOT 1 to 4, SCHED_CHIME 5, DRILL 6. -/
def Owner.code : Owner → BitVec 4
  | .none => 0
  | .slot n => BitVec.ofNat 4 (n.val + 1)
  | .chime => 5
  | .drill => 6

/-- The pending claimant, coded as an owner. -/
def claimantCode : Option Claimant → BitVec 4
  | none => 0
  | some (.slot n) => BitVec.ofNat 4 (n.val + 1)
  | some .chime => 5

/-- 0 none, 1 to 7, 8 yielding 6. -/
def OwnerClass.code : OwnerClass → Byte
  | .none => 0
  | .rank n => byteNat n
  | .yielding => 8

/-- NONE 0, PLAN 1, LINE 2, INPUT 3, DRILL 4. -/
def BellOwner.code : BellOwner → BitVec 4
  | .none => 0
  | .pattern .plan => 1
  | .pattern .line => 2
  | .pattern .input => 3
  | .drill => 4

/-- The three bytes of a zone on page 5 (R90). -/
def ZoneRec.ownerBytes (r : ZoneRec) : List Byte :=
  [(BitVec.ofBool r.releasing ++ 0#3) ++ r.owner.code, r.cls.code, r.bellOwner.code ++ claimantCode r.claimant]

/-- The numbers k·n to k·n + n − 1 that a section of n entries shows. -/
def sectionOf {m : Nat} (n k : Nat) : List (Fin m) := ((List.finRange m).drop (n * k)).take n

/-- Page 5: zone owners, eight zones a section. -/
def State.page5 (k : Nat) (s : State) : List Byte :=
  (sectionOf (m := 16) 8 k).flatMap fun z => (s.zone z).ownerBytes

def Ramp.code : Ramp → BitVec 2
  | .steady => 0
  | .up => 1
  | .down => 2

/-- Page 6: zone gains, and the ramp states with zone 0 in the top bits (R90). -/
def State.page6 (s : State) : List Byte :=
  ((List.finRange 16).map fun z => byteNat (s.zone z).gain) ++
    be32 ((List.finRange 16).foldl (fun acc z => (acc <<< 2) ||| (s.zone z).ramp.code.setWidth 32) 0)

def SlotState.code : SlotState → Byte
  | .free => 0
  | .chime => 1
  | .live => 2
  | .draining => 3

/-- The fourteen bytes of a slot on page 7. -/
def Slot.bytes (t : Slot) : List Byte :=
  [t.state.code, t.channel.getD 255, byteNat t.priority, byteNat t.openOrder] ++ be16 t.requested ++ be16 t.granted ++
    [byteNat t.targetGain, byteNat t.buffer.length, byteBool t.playout] ++ be24 (BitVec.ofNat 24 t.audioTimer)

/-- Page 7: slots, two a section. -/
def State.page7 (k : Nat) (s : State) : List Byte := (sectionOf (m := 4) 2 k).flatMap fun n => (s.slot n).bytes

def CircuitState.code : CircuitState → Byte
  | .off => 0
  | .waitTime => 1
  | .inStep => 2
  | .advance => 3
  | .hold => 4

/-- The target of page 8: none in OFF and WAIT_TIME (R124). -/
def State.shownTarget (k : CircuitId) (s : State) : BitVec 16 :=
  if (s.circuit k).state = .off ∨ (s.circuit k).state = .waitTime then 0xFFFF
  else
    match s.target k with
    | some t => BitVec.ofNat 16 t
    | none => 0xFFFF

/-- The polarity bit of page 8: that of the impulse in flight, and a free value with none in flight (R124, log 30). -/
def Circuit.shownPolarity (now : Tick) (c : Circuit) : Bool :=
  match c.inFlight with
  | some p => p == .neg
  | none => (Config.unshown Blank.polarity.base now).getLsbD 0

/-- The nine bytes of a circuit on page 8 (R124, R137). -/
def State.circuitBytes (k : CircuitId) (s : State) : List Byte :=
  let c := s.circuit k
  [c.config.mode.code, c.state.code,
   bits8 false false false false (c.retained.polarity == .neg) c.gap.isSome
     (c.shownPolarity s.tb.tick) c.inFlight.isSome] ++
    be16 (BitVec.ofNat 16 c.retained.dial) ++ be16 (s.shownTarget k) ++ be16 c.impulses

/-- Page 8: circuits, two a section. -/
def State.page8 (k : Nat) (s : State) : List Byte := (sectionOf (m := 4) 2 k).flatMap fun n => s.circuitBytes n

def RecordKind.code : RecordKind → BitVec 1
  | .drill => 0
  | .panel => 1

def DrillOrigin.code : DrillOrigin → BitVec 1
  | .line => 0
  | .input => 1

def RecordOutcome.code : RecordOutcome → BitVec 3
  | .opened => 0
  | .cleared => 1
  | .aborted => 2
  | .superseded => 3
  | .reset => 4

/-- The flags byte of a drill record (R172). -/
def DrillRecord.flags (r : DrillRecord) : Byte :=
  (BitVec.ofBool r.muster.isSome ++ (BitVec.ofBool r.silence.isSome ++ BitVec.ofBool r.limit)) ++
    (r.outcome.code ++ (r.source.code ++ r.kind.code))

/-- A drill record's fields on pages 9 to 12. -/
def DrillRecord.bytes (now : Tick) (r : DrillRecord) : List Byte :=
  [r.flags] ++ be16 r.number ++ instantBytes .startDay now r.start ++ elapsedBytes .silence now r.silence ++
    elapsedBytes .muster now r.muster ++ be16 r.musters ++ be24 (BitVec.ofNat 24 r.endElapsed) ++
    be16 r.deferred ++ be16 r.lost

/-- The flags byte of a page with no record: outcome 7, no limit marker, no elapsed time present, and a free value in
the bits of kind and source (R172, log 30). -/
def emptyRecordFlags (now : Tick) : Byte := (Config.unshown Blank.kindSource.base now &&& 0x03) ||| 0x1C

/-- The record fields of a page with no record: outcome 7, an absent start instant, and free values where the record would
hold a value (R149, R172, log 30). -/
def emptyRecordBytes (now : Tick) : List Byte :=
  [emptyRecordFlags now] ++ blankBytes .number 2 now ++ instantBytes .startDay now none ++
    elapsedBytes .silence now none ++ elapsedBytes .muster now none ++ blankBytes .musters 2 now ++
    blankBytes .endElapsed 3 now ++ blankBytes .deferred 2 now ++ blankBytes .lost 2 now

/-- Pages 9 to 12: the record k places from the newest, and the present drill state, seized set and elapsed time. -/
def State.drillPage (k : Nat) (s : State) : List Byte :=
  (match s.dc.ring[k]? with
   | some r => r.bytes s.tb.tick
   | none => emptyRecordBytes s.tb.tick) ++
    [s.dc.state.code.setWidth 8] ++ be16 s.dc.seized ++ be24 (BitVec.ofNat 24 (s.dc.elapsed s.tb.tick))

/-- The thirty counters of page 13, in the order of R164, R7, R169, R39 and R65. -/
def State.counters13 (s : State) : List Count :=
  [s.li.goodCells, s.li.damagedCells, s.li.shortCells, s.li.unknownKind, s.li.syncLosses, s.li.consumed, s.li.sent,
   s.tb.validCount, s.tb.malformedCount, s.tb.stepCount, s.mu.dropped, s.mu.malformed, s.mu.lost,
   s.bs.planFired, s.bs.planFiredLate, s.bs.planDeferred, s.bs.planSkipped,
   s.bs.lineFired, s.bs.lineFiredLate, s.bs.lineDeferred, s.bs.lineSkipped, s.bs.lineMalformed, s.bs.lineListFull,
   s.bs.lineCancelled, s.bs.inputRung, s.bs.inputDeferred, s.bs.deferredLost, s.bs.deferredOverruns, s.bs.replayed,
   s.bs.replayDiscarded]

/-- The twenty-one counters of page 14, in the order of R107 and R150. -/
def State.counters14 (s : State) : List Count :=
  [s.au.opened, s.au.reopened, s.au.channelsFull, s.au.malformed, s.au.closes, s.au.timedOut, s.au.accepted,
   s.au.unbound, s.au.discarded, s.au.overrun, s.au.underrun, s.au.lost, s.au.concealed, s.au.stale,
   s.dc.startedLine, s.dc.startedInput, s.dc.ignored, s.dc.malformed, s.dc.inPanel, s.dc.episodes, s.dc.localRefused]

/-- Fifteen counters a section, 2 bytes each. -/
def counterSection (k : Nat) (counters : List Count) : List Byte := ((counters.drop (15 * k)).take 15).flatMap be16

/-- The byte of an input on page 15 (R153). -/
def Contact.pageByte (c : Contact) : Byte :=
  (0#1 ++ BitVec.ofBool c.changed) ++
    ((BitVec.ofBool c.standsActive ++ BitVec.ofBool c.level) ++
      (BitVec.ofBool c.activeHigh ++ c.function.code.setWidth 3))

/-- Page 15: the inputs. -/
def State.page15 (s : State) : List Byte := (List.finRange 8).map fun n => (s.input n).pageByte

/-- Pages 5, 7, 8, 13 and 14 have the sections 0 and 1; every other page has section 0 (R172). -/
def pageSections (p : Nat) : Nat :=
  match p with
  | 5 | 7 | 8 | 13 | 14 => 2
  | _ => 1

/-- Page p, section k, or none where READ_PAGE answers RANGE (R172). -/
def State.page (p k : Nat) (s : State) : Option (List Byte) :=
  if 15 < p ∨ pageSections p ≤ k then none
  else
    some (pageOf
      (match p with
       | 0 => s.page0
       | 1 => s.page1
       | 2 => s.page2
       | 3 => s.page3
       | 4 => s.page4
       | 5 => s.page5 k
       | 6 => s.page6
       | 7 => s.page7 k
       | 8 => s.page8 k
       | 9 => s.drillPage 0
       | 10 => s.drillPage 1
       | 11 => s.drillPage 2
       | 12 => s.drillPage 3
       | 13 => counterSection k s.counters13
       | 14 => counterSection k s.counters14
       | _ => s.page15))

end Sys2Proof.Machine
end

