-- ==== Sys2Proof/Machine/Resets.lean ====
section
/-! DEFINITION. Start-up and resets: power-on, reset pin, station reset and the seven unit resets (R19, R20, R43, R67,
R88, R89, R109, R122, R155, R156, R164, R173, R174). -/

namespace Sys2Proof.Machine

/-- Power-on: every block at its power-on values over the retained store as it was kept (R173, R174, R123). -/
def State.powerOn (straps : BitVec 6) (s : State) : State := State.started .powerOn straps s.cc.store s.pending

/-- Reset pin: as power-on, but for the cause; an impulse in flight is cut and the store is kept as it stands (R123,
R173). -/
def State.resetPin (straps : BitVec 6) (s : State) : State := State.started .resetPin straps s.cc.store s.pending

/-- Every pattern player is cut; bell lines not held by DRILL go to NONE (R50, R67). -/
def Floor.cutAll (f : Floor) : Floor := forZones allZones (fun z f => f.cut z) f

/-- UNIT_RESET of unit 1, time (R20). -/
def State.timeUnitReset (s : State) : State := s.onTb TimeBase.unitReset

/-- UNIT_RESET of unit 2, bells (R43, R67). -/
def State.bellsUnitReset (s : State) : State := (s.onFloor Floor.cutAll).onBs BellSequencer.unitReset

/-- UNIT_RESET of unit 3, zones (R88). -/
def State.zonesUnitReset (s : State) : State := s.onFloor (Floor.rebuild s.dc.state s.dc.seized)

/-- UNIT_RESET of unit 4, announce (R109). -/
def State.announceUnitReset (s : State) : State := s.onFloor Floor.announceReset

/-- Station reset at the zone arbiter, the bell output unit and the announcement unit: every live part at its power-on
values, every player in DONE and every slot FREE (R67, R89, R109). -/
def State.clearFloor (s : State) : State :=
  { s with
    za := { zones := Vector.ofFn fun z => s.za.zones[z].cleared },
    bo := { s.bo with players := Vector.replicate 16 Player.idle },
    au := { s.au with slots := Vector.replicate 4 Slot.free } }

/-- Station reset at the management unit: the log, the cursor and the staging entry at their start values, the queue
emptied and the flags cleared, and then RESTART posted (R174). -/
def ManagementUnit.stationReset (mu : ManagementUnit) : ManagementUnit :=
  { mu.restarted .stationReset with log := none, more := false, cursor := Cursor.start, staged := [] }

/-- STATION_RESET clears the running state of every unit; the clock circuit unit takes it last, so that a display's frame
shows the other units' reset values (R136, R174). -/
def State.stationReset (s : State) : State :=
  let s := ((s.onTb TimeBase.unitReset).onBs BellSequencer.unitReset).clearFloor
  let s := s.onDc (DrillController.stationReset s.tb.tick)
  let s : State := { s with ci := s.ci.unitReset }
  (s.onMu ManagementUnit.stationReset).clocksReset

/-- The unit a UNIT_RESET names, 1 to 7, is reset (R166, R174). -/
def State.unitReset (unit : Nat) (s : State) : State :=
  match unit with
  | 1 => s.timeUnitReset
  | 2 => s.bellsUnitReset
  | 3 => s.zonesUnitReset
  | 4 => s.announceUnitReset
  | 5 => s.clocksReset
  | 6 => s.drillUnitReset
  | 7 => s.inputsUnitReset
  | _ => s

end Sys2Proof.Machine
end

