-- ==== Sys2Proof/Machine/Requests.lean ====
section
/-! DEFINITION. Management requests: the tests of R165, what each request kind does and answers (R166), and MGMT cells at
the line interface (R162). -/

namespace Sys2Proof.Machine

/-- What a request answers: an outcome and the reply payload, beside the state it leaves. -/
structure Answer where
  code : ReplyCode
  payload : List Byte
  state : State

/-- A refusal, with a payload of length 0 (R165). -/
def State.refuses (s : State) (code : ReplyCode) : Answer := { code, payload := [], state := s }

/-! ## The tests of R165 -/

/-- The units that accept a request kind (R166). -/
def unitAccepts (unit kind : Nat) : Bool :=
  match kind with
  | 0 => decide (unit ≤ 7)
  | 2 | 3 => unit == 0 || unit == 1 || unit == 2 || unit == 4 || unit == 6
  | 1 | 4 | 5 | 6 | 7 | 8 | 9 | 12 => unit == 0
  | 10 => unit == 5
  | 11 => decide (1 ≤ unit) && decide (unit ≤ 7)
  | _ => false

/-- A WRITE_SETTING or READ_SETTING names a setting number its unit does not have (R165, log 12). -/
def settingUnknown (unit kind : Nat) (c : MgmtCell) : Bool :=
  (kind == 2 || kind == 3) && decide (1 ≤ c.length.toNat) && (settingOf unit (payloadByte c 0).toNat).isNone

/-- The payload bytes a request kind needs (R166), for WRITE_PART by the part at the cursor (R171). -/
def State.lengthNeeded (kind : Nat) (s : State) : Nat :=
  match kind with
  | 1 | 4 | 8 => 2
  | 2 => 5
  | 3 => 1
  | 5 => s.mu.cursor.table.needs s.mu.cursor.part
  | 10 => 4
  | _ => 0

/-- The refusal a request meets before it acts: UNKNOWN, or FIELD for its payload length (R165, log 12). -/
def State.refusal (unit kind : Nat) (c : MgmtCell) (s : State) : Option ReplyCode :=
  if unitAccepts unit kind = false ∨ settingUnknown unit kind c = true then some .unknown
  else if 30 < c.length.toNat ∨ c.length.toNat < s.lengthNeeded kind then some .field
  else none

/-! ## What each kind does (R166) -/

/-- ECHO: the request payload, copied. -/
def State.doEcho (c : MgmtCell) (s : State) : Answer := { code := .ok, payload := payloadCopy c, state := s }

/-- READ_PAGE: the 30-byte page, or RANGE (R172). -/
def State.doReadPage (c : MgmtCell) (s : State) : Answer :=
  match s.page (payloadByte c 0).toNat (payloadByte c 1).toNat with
  | some page => { code := .ok, payload := page, state := s }
  | none => s.refuses .range

/-- WRITE_SETTING: the value as taken, CLAMPED when it lay outside the range (R170). -/
def State.doWriteSetting (unit : Nat) (c : MgmtCell) (s : State) : Answer :=
  match settingOf unit (payloadByte c 0).toNat with
  | none => s.refuses .unknown
  | some k =>
    let v := k.taken (payloadValue c).toNat
    { code := if v = (payloadValue c).toNat then .ok else .clamped,
      payload := payloadByte c 0 :: be32 (BitVec.ofNat 32 v), state := k.write v s }

/-- READ_SETTING: the setting's value (R170). -/
def State.doReadSetting (unit : Nat) (c : MgmtCell) (s : State) : Answer :=
  match settingOf unit (payloadByte c 0).toNat with
  | none => s.refuses .unknown
  | some k => { code := .ok, payload := payloadByte c 0 :: be32 (BitVec.ofNat 32 (k.read s)), state := s }

/-- The cursor and the staging entry are set. -/
def State.moveCursor (cursor : Cursor) (staged : List Part) (s : State) : State :=
  s.onMu (ManagementUnit.setCursor cursor staged)

/-- SET_CURSOR: the staging entry is dropped in every case; FIELD for an unknown table, RANGE for an index outside its
window (R171). -/
def State.doSetCursor (c : MgmtCell) (s : State) : Answer :=
  match tableOf (payloadByte c 0).toNat with
  | none => (s.moveCursor s.mu.cursor []).refuses .field
  | some table =>
    let index := (payloadByte c 1).toNat
    if table.window ≤ index then (s.moveCursor s.mu.cursor []).refuses .range
    else
      let cursor : Cursor := { table, index, part := 0 }
      { code := .ok, payload := cursor.bytes, state := s.moveCursor cursor [] }

/-- WRITE_PART: a part is staged; after the entry's last the staged entry is committed or refused by its table's rule
(R171). -/
def State.doWritePart (c : MgmtCell) (s : State) : Answer :=
  let cur := s.mu.cursor
  if cur.pastEnd then s.refuses .range
  else if 0 < cur.part ∧ s.mu.staged = [] then (s.moveCursor { cur with part := 0 } []).refuses .field
  else
    let staged := s.mu.staged ++ [payloadPart c]
    if cur.part + 1 < cur.table.parts then
      { code := .ok, payload := cur.bytes, state := s.moveCursor cur.nextPart staged }
    else
      let r := (s.moveCursor cur.nextIndex []).commitEntry cur.table cur.index (Entries.staged staged)
      { code := r.1, payload := cur.bytes, state := r.2 }

/-- READ_PART: staged parts are dropped first; the part at the cursor is returned and the cursor moves as a write moves
it (R171). -/
def State.doReadPart (s : State) : Answer :=
  let cur := if s.mu.staged = [] then s.mu.cursor else { s.mu.cursor with part := 0 }
  if cur.pastEnd then s.refuses .range
  else
    { code := .ok, payload := cur.bytes ++ s.partContent cur.table cur.index cur.part,
      state := s.moveCursor cur.nextPart [] }

/-- CLEAR_ENTRY: the entry at the cursor is cleared by its table's rule, and the cursor moves to the next index (R171). -/
def State.doClearEntry (s : State) : Answer :=
  let cur := s.mu.cursor
  if cur.pastEnd then s.refuses .range
  else
    let r := (s.moveCursor cur.nextIndex []).commitEntry cur.table cur.index Entries.cleared
    { code := r.1, payload := [cur.table.code, byteNat cur.index], state := r.2 }

/-- CLEAR_EVENTS: the flags named by the mask are cleared, and with INPUT_CHANGE the change bits (R168). -/
def State.doClearEvents (c : MgmtCell) (s : State) : Answer :=
  let mask := payloadWord c 0 1
  let s := s.onMu fun mu => { mu with flags := diffSet mu.flags mask }
  let s : State := if memSet flagInputChange mask then { s with ci := s.ci.clearChanges } else s
  { code := .ok, payload := be16 s.mu.flags, state := s }

/-- CLEAR_LOG: the error log and its more mark are emptied (R169). -/
def State.doClearLog (s : State) : Answer :=
  { code := .ok, payload := [], state := s.onMu fun mu => { mu with log := none, more := false } }

/-- SET_DIAL: RANGE for a circuit above 3, and else by R119; the reply shows the rewritten entry (log 34). -/
def State.doSetDial (c : MgmtCell) (s : State) : Answer :=
  if h : (payloadByte c 0).toNat < 4 then
    let k : CircuitId := ⟨(payloadByte c 0).toNat, h⟩
    let position := payloadWord c 1 2
    let r := s.setDialOn k position.toNat (payloadByte c 3)
    let polarity := (polarityOf (payloadByte c 3) (s.circuit k).retained.polarity).getD .pos
    { code := r.1, payload := payloadByte c 0 :: be16 position ++ [byteBool (polarity == .neg)], state := r.2 }
  else s.refuses .range

/-- UNIT_RESET: the unit is reset, answered OK (R166). -/
def State.doUnitReset (unit : Nat) (s : State) : Answer := { code := .ok, payload := [], state := s.unitReset unit }

/-- A request that has passed the tests acts; STATION_RESET alone makes no reply (R165, R166). -/
def State.perform (unit kind : Nat) (c : MgmtCell) (s : State) : Answer :=
  match kind with
  | 0 => s.doEcho c
  | 1 => s.doReadPage c
  | 2 => s.doWriteSetting unit c
  | 3 => s.doReadSetting unit c
  | 4 => s.doSetCursor c
  | 5 => s.doWritePart c
  | 6 => s.doReadPart
  | 7 => s.doClearEntry
  | 8 => s.doClearEvents c
  | 9 => s.doClearLog
  | 10 => s.doSetDial c
  | 11 => s.doUnitReset unit
  | _ => s.refuses .unknown

/-! ## A request at the management unit (R165) -/

/-- The reply to a request: this station's address and group as they stand when it is queued, the request's transaction,
unit and kind, an outcome, and the payload an outcome carries (R165). -/
def State.replyTo (unit kind : Byte) (c : MgmtCell) (code : ReplyCode) (payload : List Byte) (s : State) : Outbound :=
  .reply s.mu.station s.mu.group c.transaction unit kind code (if code.carries then payload else [])

/-- An entry joins at the tail of the queue (R167). -/
def State.enqueue (e : Outbound) (s : State) : State := s.onMu fun mu => { mu with queue := mu.queue ++ [e] }

/-- The entry a request took in the queue before it acted is given its content. -/
def State.fillEntry (place : Nat) (e : Outbound) (s : State) : State :=
  s.onMu fun mu => { mu with queue := mu.queue.set place e }

/-- A request that is executed: its reply takes an entry at the tail before it acts, so that notices queue behind it
(R165). -/
def State.execute (unit kind : Byte) (c : MgmtCell) (s : State) : State :=
  let reserved := s.enqueue (s.replyTo unit kind c .ok [])
  match reserved.refusal unit.toNat kind.toNat c with
  | some code => reserved.fillEntry s.mu.queue.length (s.replyTo unit kind c code [])
  | none =>
    if kind = 12 then reserved.stationReset
    else
      let a := reserved.perform unit.toNat kind.toNat c
      a.state.fillEntry s.mu.queue.length (s.replyTo unit kind c a.code a.payload)

/-- A request the line interface hands to the management unit: malformed, dropped, or executed (R165). -/
def State.request (unit kind : Byte) (c : MgmtCell) (s : State) : State :=
  if c.transaction = 255 then s.onMu fun mu => { mu with malformed := satInc mu.malformed }
  else if queueLimit ≤ s.mu.queue.length then s.onMu fun mu => { mu with dropped := satInc mu.dropped }
  else s.execute unit kind c

/-! ## MGMT cells at the line interface (R162) -/

/-- The destination equals this station's address; an unaddressed station has none (R162). -/
def State.addressed (s : State) (c : MgmtCell) : Bool :=
  s.mu.station != 0 && c.destination == s.mu.station.setWidth 8

/-- A broadcast whose mask holds this station's group (R162). -/
def State.broadcastHere (s : State) (c : MgmtCell) : Bool := c.destination == 63 && s.inGroups c.groups

/-- A good MGMT cell: consumed and replaced, or handed on and forwarded, or forwarded alone (R162, R163, log 13); while
DOWN it is not taken (R158, log 3). -/
def State.takeMgmt (unit kind : Byte) (c : MgmtCell) (s : State) : State :=
  if s.li.sync = .down then s
  else
    let s := s.onLi LineInterface.countGood
    if s.addressed c then
      ((s.onLi fun li => { li with consumed := satInc li.consumed }).request unit kind c).fillSlot emptyCell
    else if s.broadcastHere c then (s.request unit kind c).sendOut (mgmtCell unit kind c)
    else s.sendOut (mgmtCell unit kind c)

end Sys2Proof.Machine
end

