-- ==== Sys2Proof/Machine/Tones.lean ====
section
/-! DEFINITION. The chime generator: sine tones of a frequency and the peak level, and the four sounds made of them
(R106). -/

namespace Sys2Proof.Machine

/-! ## The sine, in fixed point -/

/-- One, in fixed point. -/
def fixedOne : Int := 2 ^ 64

/-- π in fixed point. -/
def fixedPi : Int := 57952155664616982739

/-- The units of phase in one turn: 2^48 for each of the 8000 samples of a second. -/
def turnUnits : Nat := 8000 * 2 ^ 48

/-- The sum of the series of sin x from a term on: the next term is −x² / ((k + 1)(k + 2)) times it. -/
def sineSeries (square : Int) : Nat → Int → Int → Int
  | 0, _, _ => 0
  | fuel + 1, k, term => term + sineSeries square fuel (k + 2) (-(term * square / fixedOne) / ((k + 1) * (k + 2)))

/-- sin of an angle of at most a quarter turn, in fixed point; the terms left out are below its last bit. -/
def quarterSine (units : Nat) : Int :=
  let x := 2 * fixedPi * (units : Int) / (turnUnits : Int)
  sineSeries (x * x / fixedOne) 16 1 x

/-- sin of a phase, in fixed point. -/
def sineAt (units : Nat) : Int :=
  let quarter := turnUnits / 4
  let rest := units % quarter
  match units % turnUnits / quarter with
  | 0 => quarterSine rest
  | 1 => quarterSine (quarter - rest)
  | 2 => -quarterSine rest
  | _ => -quarterSine (quarter - rest)

/-! ## Tones (R106) -/

/-- The peak level of every tone (R106). -/
def tonePeak : Int := 12000

/-- The phase of sample n of a tone, at 8000 samples a second (R106); the phase it starts at is a free value (log 26). -/
def tonePhase (hertz n : Nat) : Nat := (hertz * n * 2 ^ 48 + Config.startPhase hertz) % turnUnits

/-- Sample n of a sine tone of the peak level (R106): the value of the sine rounded down or up, a free value (log 26). -/
def toneSample (hertz n : Nat) : Int :=
  let v := tonePeak * sineAt (tonePhase hertz n)
  if Config.roundsUp hertz n then -(-v / fixedOne) else v / fixedOne

/-- The session chime and the scheduled chime at sample n of their 1.0 s: 784 Hz for 500 ms, then 659 Hz for 500 ms
(R106); silence after their end. Each tone starts at its own start phase (log 38). -/
def chimeSample (n : Nat) : Int :=
  if n < 4000 then toneSample 784 n else if n < 8000 then toneSample 659 (n - 4000) else 0

/-- The all-clear chime at sample n of its 3.0 s: 523 Hz, 659 Hz and 784 Hz, 1000 ms each (R106). Each tone starts at its own
start phase (log 38). -/
def allClearSample (n : Nat) : Int :=
  if n < 8000 then toneSample 523 n
  else if n < 16000 then toneSample 659 (n - 8000)
  else if n < 24000 then toneSample 784 (n - 16000)
  else 0

/-- The evacuation tone at sample n: 1000 Hz (R106). -/
def evacSample (n : Nat) : Int := toneSample 1000 n

end Sys2Proof.Machine
end

