-- ==== Sys2Proof/Machine/Speaker.lean ====
section
/-! DEFINITION. What the speaker feeds carry: the gain multiplier, and the sample a zone hears (R71, R72, R91, R106). These are views of the state; no command reads them (log 33). -/

namespace Sys2Proof.Machine

/-! ## Gain (R72) -/

/-- m(g) for g = 0 to 80: m(0) = 0 and m(g) = round(32768 × 10^(−(80 − g)/40)), halves up (R72). -/
def multipliers : List Nat :=
    [0, 347, 368, 389, 413, 437, 463, 490, 519, 550] ++
    [583, 617, 654, 693, 734, 777, 823, 872, 924, 978] ++
    [1036, 1098, 1163, 1232, 1305, 1382, 1464, 1550, 1642, 1740] ++
    [1843, 1952, 2068, 2190, 2320, 2457, 2603, 2757, 2920, 3093] ++
    [3277, 3471, 3677, 3894, 4125, 4370, 4629, 4903, 5193, 5501] ++
    [5827, 6172, 6538, 6925, 7336, 7771, 8231, 8719, 9235, 9783] ++
    [10362, 10976, 11627, 12315, 13045, 13818, 14637, 15504, 16423, 17396] ++
    [18427, 19519, 20675, 21900, 23198, 24573, 26029, 27571, 29205, 30935] ++
    [32768]

/-- The multiplier of a gain code (R72). -/
def multiplier (g : Nat) : Nat := multipliers.getD g 0

/-- A value clipped to −32768..32767 (R72). -/
def clipSample (v : Int) : Int := max (-32768) (min 32767 v)

/-- A source sample at a gain code: (s × m) / 32768, truncated toward zero and clipped (R72). -/
def scaleSample (g : Nat) (v : Int) : Int := clipSample (Int.tdiv (v * (multiplier g : Int)) 32768)

/-! ## What a zone hears (R71, R91) -/

/-- The sample number in ms of tick since a start, at the j-th of the 8 samples of this ms. -/
def sampleNumber (now start : Tick) (j : Fin 8) : Nat := ticksSince now start * 8 + j.val

/-- A slot's output at the j-th sample of this ms: the session chime in CHIME, and in LIVE or DRAINING the cell being
played or silence (R91, R103). -/
def Slot.output (now : Tick) (t : Slot) (j : Fin 8) : Int :=
  match t.state with
  | .free => 0
  | .chime =>
    (match t.chimeStart with
     | some start => chimeSample (sampleNumber now start j)
     | none => 0)
  | .live | .draining =>
    match t.playout, t.playing with
    | true, some samples => (samples[Fin.ofNat 16 ((takePeriod - t.takeTimer) * 8 + j.val)]).toInt
    | _, _ => 0

/-- What a zone's owner gives it (R71): the slot's output, the scheduled chime at the phase since its own claim (R80), the
evacuation tone gated with the evacuation pattern and counted from the evacuation start (log 38), the all-clear chime, or
silence. -/
def State.sourceSample (z : Zone) (j : Fin 8) (s : State) : Int :=
  let r := s.zone z
  match r.owner with
  | .none => 0
  | .slot n => (s.slot n).output s.tb.tick j
  | .chime =>
    (match r.chimeClaimed with
     | some claimed => chimeSample (sampleNumber s.tb.tick claimed j)
     | none => 0)
  | .drill =>
    match r.drillSource with
    | some .evac =>
      (match s.dc.evacStart with
       | some start => if s.dc.evacSignal then evacSample (sampleNumber s.tb.tick start j) else 0
       | none => 0)
    | some .allClear =>
      (match s.dc.chimeStart with
       | some start => allClearSample (sampleNumber s.tb.tick start j)
       | none => 0)
    | some .silent | none => 0

/-- The sample on SPKz at the j-th sample of this ms, at the zone's current gain (R71, R72). -/
def State.speakerSample (z : Zone) (j : Fin 8) (s : State) : Int := scaleSample (s.zone z).gain (s.sourceSample z j)

end Sys2Proof.Machine
end

