-- ==== Sys2Proof/Machine/Pins.lean ====
section
/-! DEFINITION. The building-side pins: bell lines BL0..15 and clock circuits CKA0..3, CKB0..3, with the cell on LOUT (R48,
R83, R110, R115, R142, R157). These are views of the state (log 33). -/

namespace Sys2Proof.Machine

/-- The bell line of a zone is on: a pattern's while its player is in LEAD or STROKE_ON, the drill's under DRIVE while
the evacuation signal is on (R48, R83, R142). -/
def State.bellLine (z : Zone) (s : State) : Bool :=
  match (s.zone z).bellOwner with
  | .none => false
  | .pattern _ => (s.bo.players[z]).lineOn
  | .drill => s.dc.state == .sounding && s.dc.evacSignal

/-- CKAk and CKBk in an impulse mode: a POS impulse drives CKA high and a NEG impulse CKB; between impulses, and in OFF,
both are low (R110). -/
def State.impulsePins (k : CircuitId) (s : State) : Bool × Bool :=
  match (s.circuit k).inFlight with
  | some .pos => (true, false)
  | some .neg => (false, true)
  | none => (false, false)

/-- The 40 bytes on LOUT (R157). -/
def State.lineBytes (s : State) : Vector Byte 40 := cellBytes s.li.out

/-- The bits CKAk is sending in DISPLAY mode, earliest first; none between frames (R127, Formats). -/
def State.frameBits (k : CircuitId) (s : State) : List Bool :=
  let c := s.circuit k
  if c.config.mode = .display ∧ 0 < c.sendLeft then
    match c.frame with
    | some f => f.bits
    | none => []
  else []

end Sys2Proof.Machine
end

