-- ==== Sys2Proof/Machine/Due.lean ====
section
/-! DEFINITION. The events of the station's own that are due in a state (log 3). -/

namespace Sys2Proof.Machine

/-- The replay spacing timer has expired under ALL (R63). -/
def BellSequencer.spacingDue (bs : BellSequencer) : Bool := bs.replay == .running && bs.spacing == 0

/-- A scheduled chime's end has been reached on some zone (R80). -/
def State.chimeEndDue (s : State) : Bool := (List.finRange 16).any fun z => (s.zone z).chimeDue s.tb.tick

/-- An event of the station's own is due: its row does something now. -/
def State.isDue (i : Instr) (s : State) : Bool :=
  match i with
  | .beaconLossExpiry => s.tb.lossDue
  | .patternPhaseEnd z => (s.bo.players[z]).due
  | .replaySpacingExpiry => s.bs.spacingDue
  | .rampStep z => (s.zone z).rampDue
  | .schedChimeEnd => s.chimeEndDue
  | .sessionChimeEnd n => (s.slot n).chimeEnded s.tb.tick
  | .playoutTake n => (s.slot n).takeDue
  | .sessionTimeout n => s.au.timeoutDue n
  | .impulseEnd k => (s.circuit k).impulseDue
  | .gapEnd k => (s.circuit k).gapDue
  | .frameMoment k => (s.circuit k).frameDue
  | .soundLimit => s.soundLimitDue
  | .allClearChimeEnd => s.allClearDue
  | .evacSignalPhase => s.evacDue
  | .debouncedChange n => (s.input n).changeDue
  | .tick .advance => s.tb.advanceDue
  | .tick (.whole _) | .tick (.count _)
  | .powerOn _ | .resetPin _ | .beacon _ | .bellCancel _ _ | .bellImmediate _ | .bellBooking _
  | .sessionOpen _ | .sessionClose _ | .audio _ | .drillStart _ | .drillSilence _ | .drillMuster _ | .drillAllClear _
  | .drillAbort _ | .emptyCell _ | .replyCell _ | .noticeCell _ | .unknownKindCell _ _ | .mgmtForward _ _ _
  | .damagedCell _ | .shortCell | .missingStart | .syncCell _ _ | .sourcedEmptyCell | .echo _ _ | .readPage _ _
  | .writeSetting _ _ | .readSetting _ _ | .setCursor _ _ | .writePart _ _ | .readPart _ _ | .clearEntry _ _
  | .clearEvents _ _ | .clearLog _ _ | .setDial _ _ | .unitResetTime _ | .unitResetBells _ | .unitResetZones _
  | .unitResetAnnounce _ | .unitResetClocks _ | .unitResetDrill _ | .unitResetInputs _ | .stationReset _ _
  | .sessionMalformed _ _ | .drillMalformed _ _ | .unknownRequestKind _ _ _ => false

/-- The events of the station's own, zones, slots, circuits and inputs in ascending number. -/
def ownEvents : List Instr :=
  [.tick .advance, .beaconLossExpiry, .replaySpacingExpiry, .schedChimeEnd, .soundLimit, .allClearChimeEnd, .evacSignalPhase] ++
    (List.finRange 16).map .patternPhaseEnd ++ (List.finRange 16).map .rampStep ++
    (List.finRange 4).map .sessionChimeEnd ++ (List.finRange 4).map .playoutTake ++
    (List.finRange 4).map .sessionTimeout ++ (List.finRange 4).map .impulseEnd ++ (List.finRange 4).map .gapEnd ++
    (List.finRange 4).map .frameMoment ++ (List.finRange 8).map .debouncedChange

/-- The events due now. A run on a real part takes each of them before its next TICK (log 3). -/
def State.dueEvents (s : State) : List Instr := ownEvents.filter fun i => s.isDue i

end Sys2Proof.Machine
end

