-- ==== Sys2Proof/Machine/AnnounceCommands.lean ====
section
/-! DEFINITION. The meanings of the announcement commands: SESSION_OPEN, SESSION_CLOSE, SESSION_MALFORMED, AUDIO,
SESSION_CHIME_END, PLAYOUT_TAKE, SESSION_TIMEOUT. -/

namespace Sys2Proof.Machine

/-- SESSION_OPEN: a SESSION cell with kind code 1 (R92 to R96). -/
def execSessionOpen (c : SessionCell) (s : State) : Host.Outcome State Fault Refusal :=
  .next (s.receive (sessionCell 1 c) (State.takeSession 1 c))

/-- SESSION_CLOSE: a SESSION cell with kind code 2 (R92, R98). -/
def execSessionClose (c : SessionCell) (s : State) : Host.Outcome State Fault Refusal :=
  .next (s.receive (sessionCell 2 c) (State.takeSession 2 c))

/-- SESSION_MALFORMED: a SESSION cell that fails the form test is counted and ignored (R92); the row follows the code and
channel its cell carries (log 11). -/
def execSessionMalformed (code : BitVec 4) (c : SessionCell) (s : State) : Host.Outcome State Fault Refusal :=
  .next (s.receive (sessionCell code c) (State.takeSession code c))

/-- AUDIO: an AUDIO cell is unbound, discarded, stale, offered or an overrun (R100 to R103). -/
def execAudio (c : AudioCell) (s : State) : Host.Outcome State Fault Refusal :=
  .next (s.receive (audioCell c) (State.takeAudio c))

/-- SESSION_CHIME_END: the session chime has ended and the slot enters LIVE (R97). -/
def execSessionChimeEnd (n : SlotId) (s : State) : Host.Outcome State Fault Refusal :=
  .next (if (s.slot n).chimeEnded s.tb.tick then s.setSlot n Slot.enterLive else s)

/-- PLAYOUT_TAKE: a take falls due: the next cell plays, LIVE underruns, or the drain is complete (R103, R104). -/
def execPlayoutTake (n : SlotId) (s : State) : Host.Outcome State Fault Refusal :=
  .next (if (s.slot n).takeDue then s.playoutDue n else s)

/-- SESSION_TIMEOUT: the last-audio timer of a LIVE slot has reached the session timeout (R105). -/
def execSessionTimeout (n : SlotId) (s : State) : Host.Outcome State Fault Refusal :=
  .next (if s.au.timeoutDue n then s.timeoutSlot n else s)

end Sys2Proof.Machine
end

