-- ==== Sys2Proof/Machine/BellCommands.lean ====
section
/-! DEFINITION. The meanings of the bell commands: BELL_CANCEL, BELL_IMMEDIATE, BELL_BOOKING, PATTERN_PHASE_END,
REPLAY_SPACING_EXPIRY. -/

namespace Sys2Proof.Machine

/-- BELL_CANCEL: a BELL cell with the cancel flag removes the pending entry with its id (R51, R52). -/
def execBellCancel (immediate : Bool) (c : BellCell) (s : State) : Host.Outcome State Fault Refusal :=
  .next (s.receive (bellCell true immediate c) (State.takeBell true immediate c))

/-- BELL_IMMEDIATE: a BELL cell with the immediate flag rings now (R51, R53). -/
def execBellImmediate (c : BellCell) (s : State) : Host.Outcome State Fault Refusal :=
  .next (s.receive (bellCell false true c) (State.takeBell false true c))

/-- BELL_BOOKING: a BELL cell with a due instant is listed, rung late or skipped (R51, R54, R55). -/
def execBellBooking (c : BellCell) (s : State) : Host.Outcome State Fault Refusal :=
  .next (s.receive (bellCell false false c) (State.takeBell false false c))

/-- PATTERN_PHASE_END: a player whose phase time has run out moves to its next phase (R49). -/
def execPatternPhaseEnd (z : Zone) (s : State) : Host.Outcome State Fault Refusal :=
  .next (s.onFloor (Floor.phaseEnd z))

/-- REPLAY_SPACING_EXPIRY: the spacing timer has expired under ALL, and the next head is taken (R63). -/
def execReplaySpacingExpiry (s : State) : Host.Outcome State Fault Refusal :=
  .next (if s.bs.spacingDue then s.replayNext else s)

end Sys2Proof.Machine
end

