-- ==== Sys2Proof/Machine/ClockCommands.lean ====
section
/-! DEFINITION. The meanings of the clock circuit commands: IMPULSE_END, GAP_END, FRAME_MOMENT. -/

namespace Sys2Proof.Machine

/-- IMPULSE_END: the width of an impulse has passed: the pin goes low and the gap starts (R116, R122). -/
def execImpulseEnd (k : CircuitId) (s : State) : Host.Outcome State Fault Refusal :=
  .next (if (s.circuit k).impulseDue then s.impulseEnds k else s)

/-- GAP_END: the gap has ended and the circuit decides again (R116). -/
def execGapEnd (k : CircuitId) (s : State) : Host.Outcome State Fault Refusal :=
  .next (if (s.circuit k).gapDue then s.gapEnds k else s)

/-- FRAME_MOMENT: a display circuit composes a frame and starts sending it (R127). -/
def execFrameMoment (k : CircuitId) (s : State) : Host.Outcome State Fault Refusal :=
  .next (if (s.circuit k).frameDue then s.sendFrame k else s)

end Sys2Proof.Machine
end

