-- ==== Sys2Proof/Machine/ContactCommands.lean ====
section
/-! DEFINITION. The meaning of the contact input command: DEBOUNCED_CHANGE. -/

namespace Sys2Proof.Machine

/-- DEBOUNCED_CHANGE: an input's debounce timer has reached 20 ms: level, change bit, INPUT_CHANGE and action (R153,
R154). -/
def execDebouncedChange (n : InputId) (s : State) : Host.Outcome State Fault Refusal :=
  .next (if (s.input n).changeDue then s.inputChange n else s)

end Sys2Proof.Machine
end

