-- ==== Sys2Proof/Machine/DrillCommands.lean ====
section
/-! DEFINITION. The meanings of the drill commands: DRILL_START, DRILL_SILENCE, DRILL_MUSTER, DRILL_ALL_CLEAR, DRILL_ABORT,
DRILL_MALFORMED, SOUND_LIMIT, ALL_CLEAR_CHIME_END, EVAC_SIGNAL_PHASE. -/

namespace Sys2Proof.Machine

/-- DRILL_START: a DRILL cell with command 1 (R140, R141). -/
def execDrillStart (c : DrillCell) (s : State) : Host.Outcome State Fault Refusal :=
  .next (s.receive (drillCell 1 c) (State.takeDrill 1 c))

/-- DRILL_SILENCE: a DRILL cell with command 2 (R140, R143). -/
def execDrillSilence (c : DrillCell) (s : State) : Host.Outcome State Fault Refusal :=
  .next (s.receive (drillCell 2 c) (State.takeDrill 2 c))

/-- DRILL_MUSTER: a DRILL cell with command 3 (R140, R144). -/
def execDrillMuster (c : DrillCell) (s : State) : Host.Outcome State Fault Refusal :=
  .next (s.receive (drillCell 3 c) (State.takeDrill 3 c))

/-- DRILL_ALL_CLEAR: a DRILL cell with command 4 (R140, R145). -/
def execDrillAllClear (c : DrillCell) (s : State) : Host.Outcome State Fault Refusal :=
  .next (s.receive (drillCell 4 c) (State.takeDrill 4 c))

/-- DRILL_ABORT: a DRILL cell with command 5 (R140, R146). -/
def execDrillAbort (c : DrillCell) (s : State) : Host.Outcome State Fault Refusal :=
  .next (s.receive (drillCell 5 c) (State.takeDrill 5 c))

/-- DRILL_MALFORMED: a DRILL cell with an unknown command is counted and ignored (R140); the row follows the command its
cell carries (log 11). -/
def execDrillMalformed (code : BitVec 4) (c : DrillCell) (s : State) : Host.Outcome State Fault Refusal :=
  .next (s.receive (drillCell code c) (State.takeDrill code c))

/-- SOUND_LIMIT: the drill elapsed time has reached the sound limit in SOUNDING (R143). -/
def execSoundLimit (s : State) : Host.Outcome State Fault Refusal :=
  .next (if s.soundLimitDue then s.drillSilenced .soundLimit else s)

/-- ALL_CLEAR_CHIME_END: the all-clear chime is complete, the state becomes IDLE and the building is handed back (R145,
R146). -/
def execAllClearChimeEnd (s : State) : Host.Outcome State Fault Refusal :=
  .next (if s.allClearDue then s.allClearEnd else s)

/-- EVAC_SIGNAL_PHASE: the evacuation signal is switched to what its phase gives (R142, log 28). -/
def execEvacSignalPhase (s : State) : Host.Outcome State Fault Refusal :=
  .next (if s.evacDue then s.onDc fun dc => { dc with evacSignal := s.evacNow } else s)

end Sys2Proof.Machine
end

