-- ==== Sys2Proof/Machine/LineCommands.lean ====
section
/-! DEFINITION. The meanings of the line commands: EMPTY_CELL, REPLY_CELL, NOTICE_CELL, UNKNOWN_KIND_CELL, MGMT_FORWARD,
DAMAGED_CELL, SHORT_CELL, MISSING_START, SYNC_CELL, SOURCED_EMPTY_CELL. -/

namespace Sys2Proof.Machine

/-- EMPTY_CELL: a good EMPTY cell is forwarded, or filled with the head of the outbound queue (R162, R163). -/
def execEmptyCell (c : RawCell) (s : State) : Host.Outcome State Fault Refusal :=
  .next (s.receiveEmpty (rawCell 0 c))

/-- REPLY_CELL: a REPLY cell of another station is forwarded (R161, R162). -/
def execReplyCell (c : RawCell) (s : State) : Host.Outcome State Fault Refusal :=
  .next (s.receive (rawCell 7 c) id)

/-- NOTICE_CELL: a NOTICE cell of another station is forwarded (R161, R162). -/
def execNoticeCell (c : RawCell) (s : State) : Host.Outcome State Fault Refusal :=
  .next (s.receive (rawCell 8 c) id)

/-- UNKNOWN_KIND_CELL: a cell of kind 9 to 15 is counted and forwarded (R161, R162). A kind below 9 is no such cell and
changes nothing (log 11). -/
def execUnknownKindCell (kind : BitVec 4) (c : RawCell) (s : State) : Host.Outcome State Fault Refusal :=
  .next (if kind.toNat < 9 then s else s.receive (rawCell kind c) State.countUnknown)

/-- MGMT_FORWARD: a MGMT cell that does not apply at this station is forwarded (R162); the row follows the destination its
cell carries (log 11). -/
def execMgmtForward (unit kind : Byte) (c : MgmtCell) (s : State) : Host.Outcome State Fault Refusal :=
  .next (s.takeMgmt unit kind c)

/-- DAMAGED_CELL: a damaged cell is counted, logged and forwarded (R160), or sets the good cells to 0 while DOWN (R158). -/
def execDamagedCell (c : Cell) (s : State) : Host.Outcome State Fault Refusal :=
  .next (s.damaged c)

/-- SHORT_CELL: a cell ended short is counted and replaced by EMPTY (R157, R158). -/
def execShortCell (s : State) : Host.Outcome State Fault Refusal :=
  .next (s.short)

/-- MISSING_START: an expected cell start has not come (R158). -/
def execMissingStart (s : State) : Host.Outcome State Fault Refusal :=
  .next (s.missedStart)

/-- SYNC_CELL: a cell received while DOWN counts toward sync, or sets the good cells to 0; while UP, the start of a cell that
is then cut off (R158, log 10). -/
def execSyncCell (onTime : Bool) (c : Cell) (s : State) : Host.Outcome State Fault Refusal :=
  .next (s.syncReceived onTime c)

/-- SOURCED_EMPTY_CELL: while DOWN an EMPTY cell is sent on the station's own timing (R158). -/
def execSourcedEmptyCell (s : State) : Host.Outcome State Fault Refusal :=
  .next (s.sourceEmpty)

end Sys2Proof.Machine
end

