-- ==== Sys2Proof/Machine/ManagementCommands.lean ====
section
/-! DEFINITION. The meanings of the management requests, but for the resets. -/

namespace Sys2Proof.Machine

/-- ECHO: request kind 0; the payload is copied back, by the tests of R165. -/
def execEcho (unit : Byte) (c : MgmtCell) (s : State) : Host.Outcome State Fault Refusal :=
  .next (s.takeMgmt unit 0 c)

/-- READ_PAGE: request kind 1; a page is read (R172), by the tests of R165. -/
def execReadPage (unit : Byte) (c : MgmtCell) (s : State) : Host.Outcome State Fault Refusal :=
  .next (s.takeMgmt unit 1 c)

/-- WRITE_SETTING: request kind 2; a setting is stored and acts (R170), by the tests of R165. -/
def execWriteSetting (unit : Byte) (c : MgmtCell) (s : State) : Host.Outcome State Fault Refusal :=
  .next (s.takeMgmt unit 2 c)

/-- READ_SETTING: request kind 3; a setting is read (R170), by the tests of R165. -/
def execReadSetting (unit : Byte) (c : MgmtCell) (s : State) : Host.Outcome State Fault Refusal :=
  .next (s.takeMgmt unit 3 c)

/-- SET_CURSOR: request kind 4; the table cursor is set (R171), by the tests of R165. -/
def execSetCursor (unit : Byte) (c : MgmtCell) (s : State) : Host.Outcome State Fault Refusal :=
  .next (s.takeMgmt unit 4 c)

/-- WRITE_PART: request kind 5; a part is staged, and an entry's last part commits it (R171), by the tests of R165. -/
def execWritePart (unit : Byte) (c : MgmtCell) (s : State) : Host.Outcome State Fault Refusal :=
  .next (s.takeMgmt unit 5 c)

/-- READ_PART: request kind 6; the part at the cursor is read (R171), by the tests of R165. -/
def execReadPart (unit : Byte) (c : MgmtCell) (s : State) : Host.Outcome State Fault Refusal :=
  .next (s.takeMgmt unit 6 c)

/-- CLEAR_ENTRY: request kind 7; the entry at the cursor is cleared (R171), by the tests of R165. -/
def execClearEntry (unit : Byte) (c : MgmtCell) (s : State) : Host.Outcome State Fault Refusal :=
  .next (s.takeMgmt unit 7 c)

/-- CLEAR_EVENTS: request kind 8; event flags are cleared (R168), by the tests of R165. -/
def execClearEvents (unit : Byte) (c : MgmtCell) (s : State) : Host.Outcome State Fault Refusal :=
  .next (s.takeMgmt unit 8 c)

/-- CLEAR_LOG: request kind 9; the error log is emptied (R169), by the tests of R165. -/
def execClearLog (unit : Byte) (c : MgmtCell) (s : State) : Host.Outcome State Fault Refusal :=
  .next (s.takeMgmt unit 9 c)

/-- SET_DIAL: request kind 10; a dial position is written (R119), by the tests of R165. -/
def execSetDial (unit : Byte) (c : MgmtCell) (s : State) : Host.Outcome State Fault Refusal :=
  .next (s.takeMgmt unit 10 c)

/-- UNKNOWN_REQUEST_KIND: a request of a kind above 12, or a UNIT_RESET of no unit 1 to 7, is answered UNKNOWN (R165,
log 29); the row follows the codes its cell carries (log 11). -/
def execUnknownRequestKind (unit kind : Byte) (c : MgmtCell) (s : State) : Host.Outcome State Fault Refusal :=
  .next (s.takeMgmt unit kind c)

end Sys2Proof.Machine
end

