-- ==== Sys2Proof/Machine/ResetCommands.lean ====
section
/-! DEFINITION. The meanings of the reset commands: POWER_ON, RESET_PIN, the seven unit resets and STATION_RESET. -/

namespace Sys2Proof.Machine

/-- POWER_ON: every block at its power-on values, the straps read, the RESTART notice queued (R173, R174). -/
def execPowerOn (straps : BitVec 6) (s : State) : Host.Outcome State Fault Refusal :=
  .next (s.powerOn straps)

/-- RESET_PIN: as power-on, with the retained store kept and an impulse in flight cut (R123, R173, R174). -/
def execResetPin (straps : BitVec 6) (s : State) : Host.Outcome State Fault Refusal :=
  .next (s.resetPin straps)

/-- UNIT_RESET of unit 1, time (R20), by the tests of R165. -/
def execUnitResetTime (c : MgmtCell) (s : State) : Host.Outcome State Fault Refusal :=
  .next (s.takeMgmt 1 11 c)

/-- UNIT_RESET of unit 2, bells (R67), by the tests of R165. -/
def execUnitResetBells (c : MgmtCell) (s : State) : Host.Outcome State Fault Refusal :=
  .next (s.takeMgmt 2 11 c)

/-- UNIT_RESET of unit 3, zones (R88), by the tests of R165. -/
def execUnitResetZones (c : MgmtCell) (s : State) : Host.Outcome State Fault Refusal :=
  .next (s.takeMgmt 3 11 c)

/-- UNIT_RESET of unit 4, announce (R109), by the tests of R165. -/
def execUnitResetAnnounce (c : MgmtCell) (s : State) : Host.Outcome State Fault Refusal :=
  .next (s.takeMgmt 4 11 c)

/-- UNIT_RESET of unit 5, clocks (R122, R136), by the tests of R165. -/
def execUnitResetClocks (c : MgmtCell) (s : State) : Host.Outcome State Fault Refusal :=
  .next (s.takeMgmt 5 11 c)

/-- UNIT_RESET of unit 6, drill (R155), by the tests of R165. -/
def execUnitResetDrill (c : MgmtCell) (s : State) : Host.Outcome State Fault Refusal :=
  .next (s.takeMgmt 6 11 c)

/-- UNIT_RESET of unit 7, inputs (R156), by the tests of R165. -/
def execUnitResetInputs (c : MgmtCell) (s : State) : Host.Outcome State Fault Refusal :=
  .next (s.takeMgmt 7 11 c)

/-- STATION_RESET: request kind 12; the running state of every unit is cleared (R174). -/
def execStationReset (unit : Byte) (c : MgmtCell) (s : State) : Host.Outcome State Fault Refusal :=
  .next (s.takeMgmt unit 12 c)

end Sys2Proof.Machine
end

