-- ==== Sys2Proof/Machine/TimeCommands.lean ====
section
/-! DEFINITION. The meanings of the time commands: TICK, BEACON, BEACON_LOSS_EXPIRY. -/

namespace Sys2Proof.Machine

/-- TICK: the tick count, the boundary phase and every interval count on, the contact pins are sampled, and in LOCKED or
HOLDOVER local time advances and is delivered (R3 to R6, R153); the two parts may be given apart (log 4). -/
def execTick (part : TickPart) (s : State) : Host.Outcome State Fault Refusal :=
  .next (s.tickPart part)

/-- BEACON: a good beacon cell is tested, compensated, compared and disciplined (R7 to R13), and forwarded (R162). -/
def execBeacon (c : BeaconCell) (s : State) : Host.Outcome State Fault Refusal :=
  .next (s.receive (beaconCell c) (State.takeBeacon c))

/-- BEACON_LOSS_EXPIRY: in LOCKED with the timer at its limit the state becomes HOLDOVER (R14); else nothing (log 3). -/
def execBeaconLossExpiry (s : State) : Host.Outcome State Fault Refusal :=
  .next (if s.tb.lossDue then s.enterHoldover else s)

end Sys2Proof.Machine
end

