-- ==== Sys2Proof/Machine/ZoneCommands.lean ====
section
/-! DEFINITION. The meanings of the zone commands: RAMP_STEP, SCHED_CHIME_END. -/

namespace Sys2Proof.Machine

/-- RAMP_STEP: one 2 ms step of a running ramp, with the handover or release it completes (R73, R76, R79). -/
def execRampStep (z : Zone) (s : State) : Host.Outcome State Fault Refusal :=
  .next (s.onFloor (Floor.rampStep z))

/-- SCHED_CHIME_END: every zone whose chime end has been reached is released, or sees a withdrawal (R80, log 24). -/
def execSchedChimeEnd (s : State) : Host.Outcome State Fault Refusal :=
  .next (s.onFloor (forZones allZones (Floor.chimeEndOn s.tb.tick)))

end Sys2Proof.Machine
end

