-- ==== Sys2Proof/Machine/Dispatch.lean ====
section
/-! DEFINITION. The command dispatch: one arm for each row of spec/opcode_table.json. -/

namespace Sys2Proof.Machine

def exec (i : Instr) (s : State) : Host.Outcome State Fault Refusal :=
  match i with
  | .powerOn straps => Sys2Proof.Machine.execPowerOn straps s
  | .resetPin straps => Sys2Proof.Machine.execResetPin straps s
  | .tick part => Sys2Proof.Machine.execTick part s
  | .beacon c => Sys2Proof.Machine.execBeacon c s
  | .beaconLossExpiry => Sys2Proof.Machine.execBeaconLossExpiry s
  | .bellCancel immediate c => Sys2Proof.Machine.execBellCancel immediate c s
  | .bellImmediate c => Sys2Proof.Machine.execBellImmediate c s
  | .bellBooking c => Sys2Proof.Machine.execBellBooking c s
  | .patternPhaseEnd z => Sys2Proof.Machine.execPatternPhaseEnd z s
  | .replaySpacingExpiry => Sys2Proof.Machine.execReplaySpacingExpiry s
  | .rampStep z => Sys2Proof.Machine.execRampStep z s
  | .schedChimeEnd => Sys2Proof.Machine.execSchedChimeEnd s
  | .sessionOpen c => Sys2Proof.Machine.execSessionOpen c s
  | .sessionClose c => Sys2Proof.Machine.execSessionClose c s
  | .audio c => Sys2Proof.Machine.execAudio c s
  | .sessionChimeEnd n => Sys2Proof.Machine.execSessionChimeEnd n s
  | .playoutTake n => Sys2Proof.Machine.execPlayoutTake n s
  | .sessionTimeout n => Sys2Proof.Machine.execSessionTimeout n s
  | .impulseEnd k => Sys2Proof.Machine.execImpulseEnd k s
  | .gapEnd k => Sys2Proof.Machine.execGapEnd k s
  | .frameMoment k => Sys2Proof.Machine.execFrameMoment k s
  | .drillStart c => Sys2Proof.Machine.execDrillStart c s
  | .drillSilence c => Sys2Proof.Machine.execDrillSilence c s
  | .drillMuster c => Sys2Proof.Machine.execDrillMuster c s
  | .drillAllClear c => Sys2Proof.Machine.execDrillAllClear c s
  | .drillAbort c => Sys2Proof.Machine.execDrillAbort c s
  | .soundLimit => Sys2Proof.Machine.execSoundLimit s
  | .allClearChimeEnd => Sys2Proof.Machine.execAllClearChimeEnd s
  | .evacSignalPhase => Sys2Proof.Machine.execEvacSignalPhase s
  | .debouncedChange n => Sys2Proof.Machine.execDebouncedChange n s
  | .emptyCell c => Sys2Proof.Machine.execEmptyCell c s
  | .replyCell c => Sys2Proof.Machine.execReplyCell c s
  | .noticeCell c => Sys2Proof.Machine.execNoticeCell c s
  | .unknownKindCell kind c => Sys2Proof.Machine.execUnknownKindCell kind c s
  | .mgmtForward unit kind c => Sys2Proof.Machine.execMgmtForward unit kind c s
  | .damagedCell c => Sys2Proof.Machine.execDamagedCell c s
  | .shortCell => Sys2Proof.Machine.execShortCell s
  | .missingStart => Sys2Proof.Machine.execMissingStart s
  | .syncCell onTime c => Sys2Proof.Machine.execSyncCell onTime c s
  | .sourcedEmptyCell => Sys2Proof.Machine.execSourcedEmptyCell s
  | .echo unit c => Sys2Proof.Machine.execEcho unit c s
  | .readPage unit c => Sys2Proof.Machine.execReadPage unit c s
  | .writeSetting unit c => Sys2Proof.Machine.execWriteSetting unit c s
  | .readSetting unit c => Sys2Proof.Machine.execReadSetting unit c s
  | .setCursor unit c => Sys2Proof.Machine.execSetCursor unit c s
  | .writePart unit c => Sys2Proof.Machine.execWritePart unit c s
  | .readPart unit c => Sys2Proof.Machine.execReadPart unit c s
  | .clearEntry unit c => Sys2Proof.Machine.execClearEntry unit c s
  | .clearEvents unit c => Sys2Proof.Machine.execClearEvents unit c s
  | .clearLog unit c => Sys2Proof.Machine.execClearLog unit c s
  | .setDial unit c => Sys2Proof.Machine.execSetDial unit c s
  | .unitResetTime c => Sys2Proof.Machine.execUnitResetTime c s
  | .unitResetBells c => Sys2Proof.Machine.execUnitResetBells c s
  | .unitResetZones c => Sys2Proof.Machine.execUnitResetZones c s
  | .unitResetAnnounce c => Sys2Proof.Machine.execUnitResetAnnounce c s
  | .unitResetClocks c => Sys2Proof.Machine.execUnitResetClocks c s
  | .unitResetDrill c => Sys2Proof.Machine.execUnitResetDrill c s
  | .unitResetInputs c => Sys2Proof.Machine.execUnitResetInputs c s
  | .stationReset unit c => Sys2Proof.Machine.execStationReset unit c s
  | .sessionMalformed code c => Sys2Proof.Machine.execSessionMalformed code c s
  | .drillMalformed code c => Sys2Proof.Machine.execDrillMalformed code c s
  | .unknownRequestKind unit kind c => Sys2Proof.Machine.execUnknownRequestKind unit kind c s

end Sys2Proof.Machine
end

