-- ==== Sys2Proof/Safety.lean ====
section
/-! DEFINITION. What holds of every state a run reaches: the laws of the device the chapters state, which every step keeps;
and the words the statements are made in: what a bell, a claim, a seizure, a request leaves behind. -/

namespace Sys2Proof.Machine

/-! ## Each block -/

/-- The time base: the record's range (R1), the phase (R3), S within ±T (R13, R16), and the ranges of R8, R12, R14, R16
and R17. -/
abbrev TimeBase.Ok (tb : TimeBase) : Prop :=
  tb.now.ms < dayMs ∧ tb.phase < 100 ∧ |tb.slew| ≤ (tb.stepThreshold : Int) ∧ |tb.keptStep| ≤ 2147483647 ∧
    tb.lossTimer ≤ elapsedLimit ∧ (100 ≤ tb.stepThreshold ∧ tb.stepThreshold ≤ 60000) ∧
    (3 ≤ tb.lossLimit ∧ tb.lossLimit ≤ 255) ∧ tb.delayComp ≤ 65535

/-- A pattern record's ranges (R45). -/
abbrev Pattern.Ok (p : Pattern) : Prop := p.lead ≤ 5000 ∧ p.lead % 100 = 0 ∧ p.a ≤ 7 ∧ p.b ≤ 3 ∧ p.strokes ≤ 63

/-- A clock circuit's fields (R110, R111, R115, R116, R125). -/
abbrev Circuit.Ok (c : Circuit) : Prop :=
  c.retained.dial < 1440 ∧ (100 ≤ c.config.width ∧ c.config.width ≤ 2000 ∧ c.config.width % 100 = 0) ∧
    c.config.hold ≤ 120 ∧ c.config.split ≤ 8 ∧ c.config.drillSplit ≤ 8 ∧
    (c.inFlight.isSome → c.config.mode.positions ≠ none ∧ c.gap = none ∧ c.inFlight = some c.retained.polarity) ∧
    (c.config.mode.positions = none → c.state = .off ∧ c.gap = none) ∧
    (c.resetPending = true → c.inFlight.isSome)

/-- A drill record is OPEN exactly while the drill controller is in SOUNDING or SILENCED, and then it is the newest; at
most one record is OPEN (R149). -/
abbrev DrillController.RecordLaw (dc : DrillController) : Prop :=
  (match dc.ring with
   | [] => dc.state ≠ .sounding ∧ dc.state ≠ .silenced
   | newest :: older =>
     (newest.outcome = .opened ↔ dc.state = .sounding ∨ dc.state = .silenced) ∧
       ∀ r ∈ older, r.outcome ≠ .opened)

/-! ## The blocks together -/

/-- The granted zones of a slot are exactly the zones it owns, and a FREE slot owns none (R70, R91). -/
abbrev State.OwnersAgree (s : State) : Prop :=
  ∀ (z : Zone) (n : SlotId), memSet z (s.slot n).granted = true ↔ (s.zone z).owner = .slot n

/-- A pending claimant that is a slot claims the zone, from its requested set (R74, R91). -/
abbrev State.ClaimantsAgree (s : State) : Prop :=
  ∀ (z : Zone) (n : SlotId), (s.zone z).claimant = some (.slot n) →
    (s.slot n).claims = true ∧ memSet z (s.slot n).requested = true

/-- The bell line owner follows the pattern player (R48, R85). -/
abbrev State.LinesAgree (s : State) : Prop :=
  ∀ z : Zone,
    match (s.zone z).bellOwner with
    | .pattern o => (s.bo.players[z]).phase ≠ .done ∧ (s.bo.players[z]).origin = o
    | .none | .drill => (s.bo.players[z]).phase = .done

/-- The seized set as R139 works it out from the drill state and the enabled zones. -/
def State.seizedNow (s : State) : ZoneSet :=
  match s.dc.state with
  | .idle => 0
  | .sounding | .silenced | .clearing => s.dc.named &&& s.enabledZones
  | .panel => s.enabledZones

/-- The drill controller is in PANEL exactly while a PANEL_ALARM input stands active (R147, R148, R152, R156). -/
abbrev State.PanelLaw (s : State) : Prop := s.dc.state = .panel ↔ s.panelHolds = true

/-! ## The laws every step keeps -/

/-- The speaker feed law: a zone's gain is 0 whenever its owner is NONE (no ramp runs there) (R70), the granted zones of a
slot are exactly the zones it owns, a slot pending on a zone is in CHIME or LIVE and asks for it (R74), and a FREE slot
holds the FREE values (R91). -/
structure State.FeedLaw (s : State) : Prop where
  silent : ∀ z : Zone, (s.zone z).owner = .none → (s.zone z).gain = 0 ∧ (s.zone z).ramp = .steady
  granted : s.OwnersAgree
  claimants : s.ClaimantsAgree
  free : ∀ n : SlotId, (s.slot n).state = .free → s.slot n = Slot.free

/-- The slot law: no two slots are bound to one channel (R91); the bound slots hold open orders that differ, from 1 to their
number, and no other slot holds one (R91, R94); the chime start is present exactly in CHIME (R91); a slot pending on a zone is
not its owner (R91), a pending scheduled chime has a chime end (R70), and yielding 6 is a class of DRILL alone (R71). -/
structure State.SlotLaw (s : State) : Prop where
  channels : ∀ a b : SlotId, a ≠ b → (s.slot a).channel = (s.slot b).channel → (s.slot a).channel = none
  unbound : ∀ n : SlotId, (s.slot n).openOrder = 0 ↔ (s.slot n).channel = none
  orders : ∀ a b : SlotId, a ≠ b → (s.slot a).openOrder = (s.slot b).openOrder → (s.slot a).openOrder = 0
  ranks : ∀ n : SlotId,
    (s.slot n).openOrder ≤ ((List.finRange 4).filter fun m : SlotId => (s.slot m).channel.isSome).length
  chime : ∀ n : SlotId, (s.slot n).state = .chime ↔ (s.slot n).chimeStart ≠ none
  pending : ∀ (z : Zone) (n : SlotId), (s.zone z).claimant = some (.slot n) → (s.zone z).owner ≠ .slot n
  chimeEnd : ∀ z : Zone, (s.zone z).claimant = some .chime → (s.zone z).chimeEnd ≠ none
  yielding : ∀ z : Zone, (s.zone z).cls = .yielding → (s.zone z).owner = .drill

/-- The law of H: once time is set, H is never earlier than now (R30). -/
abbrev State.MarkLaw (s : State) : Prop :=
  ∀ h : Instant, s.tb.state ≠ .unset → s.bs.mark = some h → s.tb.now.instant.later h = false

/-- A zone the drill holds: owned by DRILL at class 7, or in yielding 6 in SILENCED, with no release, no handover and no
pending claimant (R82, R83). -/
abbrev State.DrillHolds (s : State) (z : Zone) : Prop :=
  (s.zone z).owner = .drill ∧ (s.zone z).cls = (if s.dc.state = .silenced then .yielding else .rank 7) ∧
    (s.zone z).releasing = false ∧ (s.zone z).claimant = none ∧ (s.zone z).ramp ≠ .down

/-- The seizure law: the seized set is what R139 works out, the drill holds each of its zones, but for zones taken from it
while it yields in SILENCED (R82, R83), and a zone that DRILL owns outside it is being released (R84). The bell line law:
the bell line owner follows the pattern player (R48), no pattern plays on a seized zone (R85), and replay runs only in IDLE
(R60, R64). -/
structure State.SeizureLaw (s : State) : Prop where
  seized : s.dc.seized = s.seizedNow
  held : ∀ z : Zone, memSet z s.dc.seized = true →
    s.DrillHolds z ∨ s.dc.state = .silenced ∧ (s.zone z).owner ≠ .drill
  freed : ∀ z : Zone, (s.zone z).owner = .drill → memSet z s.dc.seized = true ∨ (s.zone z).releasing = true
  lines : s.LinesAgree
  silenced : ∀ z : Zone, memSet z s.dc.seized = true → (s.bo.players[z]).phase = .done
  replay : s.bs.replay = .running → s.dc.state = .idle

/-- A drill is in progress, and its elapsed time runs (R138). -/
abbrev DrillController.InProgress (dc : DrillController) : Prop :=
  dc.state = .sounding ∨ dc.state = .silenced ∨ dc.state = .clearing

/-- The drill record law of R149, with the ring position the drill controller holds as open, and the moments of R138: the
drill start and the evacuation start are present exactly while a drill is in progress, the chime start exactly in CLEARING,
where the ring is not empty, and the panel start exactly in PANEL. -/
structure State.DrillLaw (s : State) : Prop where
  records : s.dc.RecordLaw
  opened : s.dc.openRecord = if s.dc.state = .sounding ∨ s.dc.state = .silenced then some 0 else none
  ring : s.dc.ring.length ≤ 4
  drillStart : s.dc.InProgress ↔ s.dc.drillStart ≠ none
  evacStart : s.dc.InProgress ↔ s.dc.evacStart ≠ none
  chimeStart : s.dc.state = .clearing ↔ s.dc.chimeStart ≠ none
  closed : s.dc.state = .clearing → s.dc.ring ≠ []
  panelStart : s.dc.state = .panel ↔ s.dc.panelStart ≠ none

/-- The bounds of the queues: the outbound queue (R167), the pending bell list (R55), the deferred queue and its marker
(R59). -/
structure State.QueueLaw (s : State) : Prop where
  outbound : s.mu.queue.length ≤ 8
  pendingBells : s.bs.pendingBells.length ≤ 16
  ids : (s.bs.pendingBells.map PendingBell.id).Nodup
  deferred : s.bs.deferred.length ≤ 16
  unmarked : s.bs.marker = false → s.bs.deferred.length ≤ 15

/-! ## One record of a state, replaced -/

def State.withPlayer (s : State) (z : Zone) (p : Player) : State :=
  { s with bo := { s.bo with players := s.bo.players.set z p } }

def State.withZone (s : State) (z : Zone) (r : ZoneRec) : State := { s with za := { zones := s.za.zones.set z r } }

def State.withSlot (s : State) (n : SlotId) (t : Slot) : State :=
  { s with au := { s.au with slots := s.au.slots.set n t } }

def State.withCircuit (s : State) (k : CircuitId) (c : Circuit) : State :=
  { s with cc := { circuits := s.cc.circuits.set k c } }

def State.withInput (s : State) (n : InputId) (c : Contact) : State := { s with ci := { inputs := s.ci.inputs.set n c } }

/-! ## What a cell leaves behind at the line interface -/

/-- A good cell received while UP and forwarded: missing starts 0, the good cells count, the same cell on LOUT (R158,
R161, R162). -/
def State.forwards (c : Cell) (s : State) : State :=
  { s with li := { s.li with missing := 0, goodCells := satInc s.li.goodCells, out := c } }

/-- A BELL, SESSION or DRILL cell is received while UP with this station's group in its mask. -/
abbrev State.takes (s : State) (mask : GroupMask) : Prop := s.li.sync = .up ∧ memSet s.mu.group mask = true

/-- A request is addressed to this station, which an unaddressed station never is (R162). -/
abbrev State.isOwn (s : State) (c : MgmtCell) : Prop :=
  s.mu.station ≠ 0 ∧ c.destination = s.mu.station.setWidth 8

/-- A request is a broadcast that applies to this station's group, at an unaddressed station too (R162). -/
abbrev State.isBroadcast (s : State) (c : MgmtCell) : Prop := c.destination = 63 ∧ memSet s.mu.group c.groups = true

/-- A request is received while UP, addressed to this station or broadcast to its group, and executed: its transaction is not
255 and the queue has a free entry (R162, R165). -/
abbrev State.hears (s : State) (c : MgmtCell) : Prop :=
  s.li.sync = .up ∧ (s.isOwn c ∨ s.isBroadcast c) ∧ c.transaction ≠ 255 ∧ s.mu.queue.length < 8

/-- A request executed here and its reply: the reply as it is queued, whether the request is consumed, as one addressed to
this station is, and the cell it came in, in which a broadcast goes on (R162, R165). -/
structure Answered where
  reply : Outbound
  consumed : Bool
  cell : Cell
deriving DecidableEq, Repr

/-- A request and the reply of this station to it, as it stands when it is queued (R165). -/
def State.reply (s : State) (unit kind : Byte) (c : MgmtCell) (code : ReplyCode) (payload : List Byte) : Answered :=
  { reply := .reply s.mu.station s.mu.group c.transaction unit kind code payload,
    consumed := decide (s.isOwn c), cell := mgmtCell unit kind c }

/-! ## What a bell leaves behind -/

/-- Between two states a zone's record and its pattern player stay. -/
abbrev State.KeepsZone (s t : State) (z : Zone) : Prop := t.zone z = s.zone z ∧ t.bo.players[z] = s.bo.players[z]

/-- Between two states a pattern started on one zone, unless the drill holds its bell line (R48). -/
abbrev State.StartsAt (s t : State) (z : Zone) (p : Fin 16) (o : Origin) : Prop :=
  ((s.zone z).bellOwner = .drill → s.KeepsZone t z) ∧
    ((s.zone z).bellOwner ≠ .drill →
      t.bo.players[z] = Player.begin s.bo.patterns[p] o ∧
      t.zone z = { s.zone z with
        bellOwner := if (Player.begin s.bo.patterns[p] o).phase = .done then .none else .pattern o })

/-- A record with a scheduled chime pending on it until a tick count: its ramp is DOWN_FOR_HANDOVER, begun now from STEADY
and on its cadence otherwise (R73, R80). -/
def ZoneRec.chimePending (r : ZoneRec) (stop : Tick) : ZoneRec :=
  { r with claimant := some .chime, chimeEnd := some stop, ramp := .down,
           rampTimer := if r.ramp = .steady then 2 else r.rampTimer }

/-- A record owned from gain 0 toward a target: UP with its first step in 2 ms, STEADY for target 0 (R73, R76). -/
def ZoneRec.fromZero (r : ZoneRec) (target : Nat) : ZoneRec :=
  { r with gain := 0, target, ramp := if target = 0 then .steady else .up, rampTimer := if target = 0 then 0 else 2 }

/-- Between two states a scheduled chime claimed one zone, by the table of R80. -/
abbrev State.ChimesAt (s t : State) (z : Zone) : Prop :=
  t.bo.players[z] = s.bo.players[z] ∧
    ∀ (r : ZoneRec) (stop : Tick), s.zone z = r → stop = s.tb.tick + 1000 →
      (r.ramp ≠ .down → r.owner = .none →
        t.zone z = ZoneRec.fromZero
          { r with owner := .chime, cls := .rank 3, releasing := false, claimant := none, chimeEnd := some stop,
                   chimeClaimed := some s.tb.tick, drillSource := none }
          (min r.defaultGain r.maxGain)) ∧
      (∀ (n : SlotId) (k : Nat), r.ramp ≠ .down → r.owner = .slot n → r.cls = .rank k →
        t.zone z = if k ≤ 2 then r.chimePending stop else r) ∧
      (r.ramp ≠ .down → r.owner = .chime ∨ r.owner = .drill → t.zone z = r) ∧
      (∀ n : SlotId, r.ramp = .down → r.claimant = some (.slot n) →
        t.zone z = if (s.slot n).priority ≤ 2 then r.chimePending stop else r) ∧
      (r.ramp = .down → r.claimant = some .chime → t.zone z = r) ∧
      (r.ramp = .down → r.claimant = none → t.zone z = if r.releasing then r.chimePending stop else r)

/-- Between two states a pattern started on the enabled zones of a set whose bell line the drill does not hold, and
nothing else changed on the bell lines and the zone records (R48). -/
abbrev State.StartsOn (s t : State) (p : Fin 16) (zones : ZoneSet) (o : Origin) : Prop :=
  t.bo.patterns = s.bo.patterns ∧
    ∀ z : Zone,
      (memSet z zones = true ∧ (s.zone z).enabled = true → s.StartsAt t z p o) ∧
      (memSet z zones = false ∨ (s.zone z).enabled = false → s.KeepsZone t z)

/-- Between two states a bell sounded on the enabled zones of a set, as a pattern or as a scheduled chime, and nothing else
changed on the bell lines and the zone records (R23, R48, R80). -/
abbrev State.SoundsOn (s t : State) (sound : Sound) (zones : ZoneSet) (o : Origin) : Prop :=
  t.bo.patterns = s.bo.patterns ∧
    ∀ z : Zone,
      (∀ p, sound = .pattern p → memSet z zones = true → (s.zone z).enabled = true → s.StartsAt t z p o) ∧
      (sound = .chime → memSet z zones = true → (s.zone z).enabled = true → s.ChimesAt t z) ∧
      (memSet z zones = false ∨ (s.zone z).enabled = false → s.KeepsZone t z)

/-- The blocks a bell leaves as they are. -/
abbrev State.BellFrame (s t : State) : Prop :=
  t.tb = s.tb ∧ t.au = s.au ∧ t.cc = s.cc ∧ t.ci = s.ci ∧ t.pending = s.pending

/-- The spacing timer after a bell that started outside replay (R64). -/
def BellSequencer.spacingHeard (bs : BellSequencer) : Nat :=
  if bs.replay = .running then bs.replaySpacing * 1000 else bs.spacing

/-- The deferred queue after one deferral: the new entry at its end, as the overrun marker in the sixteenth position, or
lost while the marker stands (R59). -/
def BellSequencer.deferring (bs : BellSequencer) (e : Deferred) : BellSequencer :=
  { bs with
    deferred := if bs.marker then bs.deferred else bs.deferred ++ [e],
    marker := bs.marker || decide (15 ≤ bs.deferred.length),
    deferredLost := if bs.marker then satInc bs.deferredLost else bs.deferredLost }

/-- DEFERRED_OVERRUN is posted for the deferral that becomes the overrun marker (R59). -/
def ManagementUnit.deferring (mu : ManagementUnit) (bs : BellSequencer) (e : Deferred) : ManagementUnit :=
  if bs.marker = false ∧ 15 ≤ bs.deferred.length then mu.post 9 ([e.origin.code, e.sound.code] ++ be16 e.zones) else mu

/-- Between two states of the drill controller one deferral counted, as lost or as stored: in PANEL in the tallies, else in
the OPEN record where there is one (R149). -/
abbrev DrillController.CountsDeferral (dc after : DrillController) (lost : Bool) : Prop :=
  (dc.state = .panel →
    after = if lost then { dc with panelLost := satInc dc.panelLost }
      else { dc with panelDeferred := satInc dc.panelDeferred }) ∧
  (dc.state ≠ .panel → dc.openRecord = none → after = dc) ∧
  (∀ r rs, dc.state ≠ .panel → dc.openRecord = some 0 → dc.ring = r :: rs →
    after = { dc with
      ring := (if lost then { r with lost := satInc r.lost } else { r with deferred := satInc r.deferred }) :: rs })

/-- Between two states a bell rang: with an empty covered part its firing set sounds and it counts as rung; else the covered
part is deferred, the rest sounds, and it counts as deferred (R33, R34, R53, R58). `rung` and `deferred` are what else
becomes of the bell sequencer; a bell whose firing set is empty restarts a running spacing timer (log 16). -/
abbrev State.Rings (s t : State) (sound : Sound) (zones : ZoneSet) (o : Origin) (due : Option Instant)
    (rung deferred : BellSequencer) : Prop :=
  (∀ covered e, covered = (zones &&& s.enabledZones) &&& s.dc.seized →
    e = { zones := covered, sound, due, origin := o : Deferred } →
    (covered = 0 →
      t.bs = { rung with spacing := s.bs.spacingHeard } ∧ s.SoundsOn t sound zones o ∧ t.dc = s.dc) ∧
    (covered ≠ 0 →
      t.bs = { deferred.deferring e with
        spacing := if (zones &&& s.enabledZones) &&& ~~~s.dc.seized = 0 then s.bs.spacing else s.bs.spacingHeard } ∧
      s.SoundsOn t sound (zones &&& ~~~s.dc.seized) o ∧ s.dc.CountsDeferral t.dc s.bs.marker))

/-- The management unit after a bell rang (R59). -/
def State.ringing (s : State) (sound : Sound) (zones : ZoneSet) (o : Origin) (due : Option Instant)
    (mu : ManagementUnit) : ManagementUnit :=
  if (zones &&& s.enabledZones) &&& s.dc.seized = 0 then mu
  else mu.deferring s.bs { zones := (zones &&& s.enabledZones) &&& s.dc.seized, sound, due, origin := o }

/-- The valid events of a selection on a day that meet a test, counted (R22, R28). -/
def BellSequencer.countEvents (bs : BellSequencer) (sel : Selection) (day : BitVec 16) (p : Instant → Bool) : Nat :=
  match sel with
  | .plan n => ((List.finRange 48).filter fun j => (bs.plans[n][j]).valid && p ((bs.plans[n][j]).instant day)).length
  | .none | .noBells => 0

/-- What sounds when a plan event of an action fires, and nothing for a MARK (R23). -/
def PlanEvent.sound (e : PlanEvent) : Option Sound :=
  match e.action with
  | .bell => some (.pattern e.pattern)
  | .chime => some .chime
  | .mark => none

/-- The valid events a forward step from a to b skips, H being h: within one day those late by more than the grace, and
into a later day the rest of the old day (R35, R36). -/
def stepSkips (a b h : Instant) (grace : Int) (x : Instant) : Bool :=
  if a.day = b.day then x.within (a.latest h) b && decide (grace < b.since x)
  else x.later h && !x.later { day := a.day, ms := 86399999 }

/-- The valid events of b's day that a forward step from a to b fires late or defers, H being h (R35, R36). -/
def stepFires (a b h : Instant) (grace : Int) (x : Instant) : Bool :=
  if a.day = b.day then x.within (a.latest h) b && decide (b.since x ≤ grace)
  else x.later h && !x.later b && decide (b.since x ≤ grace)

/-- The drill elapsed time at a tick count (R138). -/
def DrillController.elapsedAt (dc : DrillController) (now : Tick) : Nat :=
  match dc.drillStart with
  | some start => min 16777215 (now - start).toNat
  | none => 0

/-! ## What a claim, a release and a seizure leave behind -/

/-- A slot in CHIME or LIVE that asks for a zone (R74, R91). -/
abbrev State.WantsZone (s : State) (z : Zone) (n : SlotId) : Prop :=
  ((s.slot n).state = .chime ∨ (s.slot n).state = .live) ∧ memSet z (s.slot n).requested = true

/-- A slot that waits on a zone: it asks for it and does not own it (R74). -/
abbrev State.WaitsOn (s : State) (z : Zone) (n : SlotId) : Prop := s.WantsZone z n ∧ (s.zone z).owner ≠ .slot n

/-- The waiting slot a zone passes to: of the highest priority, and at a tie of the earliest open order (R77, R79). -/
abbrev State.BestWaiting (s : State) (z : Zone) (n : SlotId) : Prop :=
  s.WaitsOn z n ∧ ∀ m : SlotId, m ≠ n → s.WaitsOn z m →
    (s.slot m).priority < (s.slot n).priority ∨
      (s.slot m).priority = (s.slot n).priority ∧ (s.slot n).openOrder < (s.slot m).openOrder

/-- A slot once the owner of a zone has been told that it goes: a slot that held the zone has lost it, and one that was
releasing it has completed its release, is FREE where its drain is done and the zone was its last, and the slots opened after
it then move down (R76, R79, R94, R104). -/
def State.slotTold (s : State) (z : Zone) (k : SlotId) : Slot :=
  match (s.zone z).owner with
  | .slot m =>
    let held := s.slot m
    let told := { held with
      requested := if (s.zone z).releasing then eraseZone z held.requested else held.requested,
      granted := eraseZone z held.granted }
    if (s.zone z).releasing = true ∧ told.state = .draining ∧ told.playout = false ∧ told.granted = 0 then
      if k = m then Slot.free
      else { s.slot k with
        openOrder := if held.openOrder ≠ 0 ∧ held.openOrder < (s.slot k).openOrder then (s.slot k).openOrder - 1
          else (s.slot k).openOrder }
    else if k = m then told
    else s.slot k
  | .none | .chime | .drill => s.slot k

/-- A slot of priority 6 that asks for a zone (R78). -/
abbrev State.SixWaits (s : State) (z : Zone) (n : SlotId) : Prop := s.WantsZone z n ∧ (s.slot n).priority = 6

/-- The slot of priority 6 that takes a yielded zone: of those that ask for it, the one of the earliest open order (R78). -/
abbrev State.SixTakes (s : State) (z : Zone) (n : SlotId) : Prop :=
  s.SixWaits z n ∧ ∀ m : SlotId, m ≠ n → s.SixWaits z m → (s.slot n).openOrder < (s.slot m).openOrder

/-- A record whose owner releases it above gain 0: the releasing mark, target 0 and DOWN_FOR_HANDOVER (R79). -/
def ZoneRec.released (r : ZoneRec) : ZoneRec :=
  { r with releasing := true, target := 0, ramp := .down, rampTimer := if r.ramp = .steady then 2 else r.rampTimer }

/-- A record with a slot pending on it (R74, R75). -/
def ZoneRec.slotPending (r : ZoneRec) (n : SlotId) : ZoneRec :=
  { r with claimant := some (.slot n), ramp := .down, rampTimer := if r.ramp = .steady then 2 else r.rampTimer }

/-- A record granted to a slot from gain 0 (R74, R76). -/
def ZoneRec.grantedTo (r : ZoneRec) (n : SlotId) (priority gain : Nat) : ZoneRec :=
  ZoneRec.fromZero
    { r with owner := .slot n, cls := .rank priority, releasing := false, claimant := none, chimeEnd := none,
             chimeClaimed := none, drillSource := none }
    (min gain r.maxGain)

/-- Between two states a slot that neither owns an enabled zone nor is pending on it claims it at a priority, by the tables of
R74 and R75. -/
abbrev State.ClaimsAt (s t : State) (z : Zone) (n : SlotId) (p gain : Nat) : Prop :=
  ∀ r : ZoneRec, s.zone z = r →
    (r.ramp ≠ .down → r.owner = .none → t.zone z = r.grantedTo n p gain) ∧
    (∀ k : Nat, r.ramp ≠ .down → r.owner ≠ .none → r.cls = .rank k →
      t.zone z = if k < p then r.slotPending n else r) ∧
    (r.ramp ≠ .down → r.owner = .drill → r.cls = .yielding → t.zone z = if p = 6 then r.grantedTo n p gain else r) ∧
    (r.ramp = .down → r.claimant = none → t.zone z = if r.releasing then r.slotPending n else r) ∧
    (r.ramp = .down → r.claimant = some .chime →
      t.zone z = if 3 < p then { r.slotPending n with chimeEnd := none } else r) ∧
    (∀ m : SlotId, r.ramp = .down → r.claimant = some (.slot m) →
      t.zone z = if (s.slot m).priority < p then r.slotPending n else r)

/-- A record whose target has been worked out again: a ramp begins from STEADY, UP goes on toward it, DOWN_FOR_HANDOVER runs
on (R73; STEADY where target and gain agree, log 19). -/
def ZoneRec.aimedAt (r : ZoneRec) (target : Nat) : ZoneRec :=
  if r.ramp = .down then { r with target }
  else if target = r.gain then { r with target, ramp := .steady, rampTimer := if r.ramp = .up then 0 else r.rampTimer }
  else { r with target, ramp := .up, rampTimer := if r.ramp = .steady then 2 else r.rampTimer }

/-- A seized zone under a mode: owned by DRILL from gain 0 with its class and source, aimed at a target (R82, R83). -/
def ZoneRec.seizedAs (r : ZoneRec) (c : OwnerClass) (source : DrillSource) (target : Nat) (bell : BellOwner) : ZoneRec :=
  ZoneRec.fromZero
    { r with owner := .drill, cls := c, releasing := false, claimant := none, chimeEnd := none, chimeClaimed := none,
             drillSource := some source, bellOwner := bell }
    target

/-- Between two states the drill released one zone of its seized set: from gain 0 at once, to the best waiting slot, or to NONE
where no slot wants it (R79, R84). -/
abbrev State.DrillReleases (s t : State) (z : Zone) : Prop :=
  ∀ bell : BellOwner, bell = (if (s.zone z).bellOwner = .drill then .none else (s.zone z).bellOwner) →
    ((s.zone z).owner ≠ .drill → t.zone z = { s.zone z with drillSource := none, bellOwner := bell }) ∧
    ((s.zone z).owner = .drill → (s.zone z).releasing = false →
      (0 < (s.zone z).gain → t.zone z = { (s.zone z).released with drillSource := none, bellOwner := bell }) ∧
      ((s.zone z).gain = 0 → (s.zone z).claimant = none → (∀ n : SlotId, ¬ s.WantsZone z n) →
        t.zone z = { (s.zone z).cleared with bellOwner := bell }) ∧
      (∀ n : SlotId, (s.zone z).gain = 0 → (s.zone z).claimant = none → s.BestWaiting z n →
        t.zone z = { (s.zone z).grantedTo n (s.slot n).priority (s.slot n).targetGain with bellOwner := bell }))

/-- The hand-back of a drill, before replay begins: each zone that was seized is released by DRILL, and every other zone is
left (R84, R146). -/
abbrev State.HandsBack (s t : State) : Prop :=
  t.tb = s.tb ∧ t.bs = s.bs ∧ t.bo = s.bo ∧ t.cc = s.cc ∧ t.pending = s.pending ∧
    ∀ z : Zone,
      (memSet z s.dc.seized = false → t.zone z = s.zone z) ∧ (memSet z s.dc.seized = true → s.DrillReleases t z)

/-- Between two states a drill began on a seized set: each of its zones is owned by DRILL at class 7 from gain 0 with source
EVAC, its bell line is the drill's and its pattern is cut; a zone of the old seized set that it lacks is released, and every
other zone is left (R82, R83, R84, R141). -/
abbrev State.Evacuates (s t : State) (seized : ZoneSet) : Prop :=
  t.bo.patterns = s.bo.patterns ∧
    ∀ z : Zone,
      (memSet z seized = true →
        t.zone z = (s.zone z).seizedAs (.rank 7) .evac
          (min (if s.dc.drillGain = 0 then (s.zone z).defaultGain else s.dc.drillGain) (s.zone z).maxGain) .drill ∧
        (t.bo.players[z]).phase = .done ∧ (s.FeedLaw → ∀ n : SlotId, memSet z (t.slot n).granted = false)) ∧
      (memSet z seized = false → memSet z s.dc.seized = true →
        s.DrillReleases t z ∧ t.bo.players[z] = s.bo.players[z]) ∧
      (memSet z seized = false → memSet z s.dc.seized = false → s.KeepsZone t z)

/-- Between two states the zones of the seized set fell silent: owned by DRILL in yielding 6 at gain 0, their bell lines held
off; a zone that slots of priority 6 wait on goes to the best of them at once, from gain 0 (R78, R83, R143). -/
abbrev State.Silences (s t : State) : Prop :=
  (∀ z : Zone,
    (memSet z s.dc.seized = false → s.KeepsZone t z) ∧
    (memSet z s.dc.seized = true → (t.bo.players[z]).phase = .done)) ∧
  ((∀ z : Zone, memSet z s.dc.seized = true → (s.zone z).owner = .drill) →
    (∀ n : SlotId, t.slot n = { s.slot n with granted := (t.slot n).granted } ∧
      ∀ z : Zone, memSet z (t.slot n).granted = true ↔
        memSet z (s.slot n).granted = true ∨ memSet z s.dc.seized = true ∧ (t.zone z).owner = .slot n) ∧
    ∀ z : Zone, memSet z s.dc.seized = true →
      ((∀ n : SlotId, ¬ s.SixWaits z n) → t.zone z = (s.zone z).seizedAs .yielding .silent 0 .drill) ∧
      (∀ n : SlotId, s.SixTakes z n →
        t.zone z = ((s.zone z).seizedAs .yielding .silent 0 .drill).grantedTo n 6 (s.slot n).targetGain))

/-- Between two states the zones of the seized set took the all-clear chime: owned by DRILL at class 7 from gain 0 toward the
chime gain, their bell lines given up (R83, R145). -/
abbrev State.Clears (s t : State) : Prop :=
  ∀ z : Zone,
    (memSet z s.dc.seized = false → s.KeepsZone t z) ∧
    (memSet z s.dc.seized = true →
      t.zone z = (s.zone z).seizedAs (.rank 7) .allClear (min s.au.chimeGain (s.zone z).maxGain) .none)

/-- The instant a record starts at: now, or absent while UNSET (R141, R147). -/
def State.startInstant (s : State) : Option Instant :=
  if s.tb.state = .unset then none else some { day := s.tb.now.day, ms := s.tb.now.ms }

/-- The drill controller once a drill has begun (R141). -/
def State.drillStarted (s : State) (source : DrillOrigin) (number : BitVec 16) (named seized : ZoneSet) :
    DrillController :=
  { s.dc with
    state := .sounding, named, seized, drillStart := some s.tb.tick, evacStart := some s.tb.tick, evacSignal := true,
    chimeStart := none, openRecord := some 0,
    startedLine := if source = .line then satInc s.dc.startedLine else s.dc.startedLine,
    startedInput := if source = .input then satInc s.dc.startedInput else s.dc.startedInput,
    ring := ({ kind := .drill, number, source, start := s.startInstant, silence := none, limit := false,
               muster := none, musters := 0, endElapsed := 0, outcome := .opened, deferred := 0, lost := 0 } ::
             s.dc.ring).take 4 }

/-- The drill controller in IDLE over its records, counts and settings (R138, R146). -/
def DrillController.resting (dc : DrillController) (ring : List DrillRecord) : DrillController :=
  { dc with state := .idle, named := 0, seized := 0, drillStart := none, evacStart := none, evacSignal := false,
            chimeStart := none, panelStart := none, panelDeferred := 0, panelLost := 0, openRecord := none, ring }

/-! ## What a display circuit shows (R126 to R134) -/

/-- A number as a frame shows it: clamped to 0 to 99, the tens digit and the units digit (R129). -/
def shownDigits (n : Nat) : List (BitVec 4) := [BitVec.ofNat 4 (min 99 n / 10), BitVec.ofNat 4 (min 99 n % 10)]

/-- The natural string of region A: the time of day in a format, with the holdover point for its colons in HOLDOVER, and
dashes while UNSET (R130, R131). -/
def State.timeShown (s : State) (format : RegionA) : List (BitVec 4) :=
  let hour := s.tb.now.ms / 3600000
  let minute := s.tb.now.ms / 60000 % 60
  let second := s.tb.now.ms / 1000 % 60
  let colon : BitVec 4 := if s.tb.state = .holdover then 13 else 12
  match format with
  | .hhmm24 =>
    if s.tb.state = .unset then [11, 11, 12, 11, 11] else shownDigits hour ++ [colon] ++ shownDigits minute
  | .hhmm12 =>
    if s.tb.state = .unset then [11, 11, 12, 11, 11, 11]
    else
      (if hour % 12 = 0 then [1, 2] else if hour % 12 < 10 then [10, BitVec.ofNat 4 (hour % 12)]
       else shownDigits (hour % 12)) ++ [colon] ++ shownDigits minute ++ [if 12 ≤ hour then 15 else 10]
  | .hhmmss =>
    if s.tb.state = .unset then [11, 11, 12, 11, 11, 12, 11, 11]
    else shownDigits hour ++ [colon] ++ shownDigits minute ++ [colon] ++ shownDigits second

/-- The drill override applies to a circuit (R133). -/
abbrev State.Overridden (s : State) (c : CircuitConfig) : Prop :=
  s.dc.state = .panel ∨ s.dc.state ≠ .idle ∧ (c.linked = 0 ∨ c.linked &&& s.dc.seized ≠ 0)

/-- A slot of a plan holds an event the lookahead for a zone set counts: of today's active plan, later than now and than H,
on a zone of the set (R41). -/
abbrev State.Ahead (s : State) (zones : ZoneSet) (n : Fin 8) (j : Fin 48) : Prop :=
  s.tb.state ≠ .unset ∧ s.bs.selection = .plan n ∧ (s.bs.plans[n][j]).valid = true ∧
    (s.bs.plans[n][j]).zones &&& zones ≠ 0 ∧ s.tb.now.ms < (s.bs.plans[n][j]).time * 1000 ∧
    (s.bs.mark.any fun h => Instant.later { day := s.tb.now.day, ms := (s.bs.plans[n][j]).time * 1000 } h) = true

/-- A slot of a plan holds the event the lookahead answers: the earliest, and of equal times the lowest slot (R41). -/
abbrev State.NextAhead (s : State) (zones : ZoneSet) (n : Fin 8) (j : Fin 48) : Prop :=
  s.Ahead zones n j ∧ ∀ k : Fin 48, s.Ahead zones n k →
    (s.bs.plans[n][j]).time < (s.bs.plans[n][k]).time ∨ (s.bs.plans[n][j]).time = (s.bs.plans[n][k]).time ∧ j ≤ k

/-- The natural string of region B: the drill field under the override, and else the text of the circuit's source (R132,
R133). -/
abbrev State.FieldShows (s : State) (c : CircuitConfig) (text : List (BitVec 4)) : Prop :=
  (s.dc.state = .panel → text = [14, 11, 11]) ∧
  (s.dc.state ≠ .panel → s.Overridden c → text = 14 :: shownDigits (s.dc.elapsedAt s.tb.tick / 60000)) ∧
  (¬ s.Overridden c →
    (c.regionB = .blank → text = [10, 10]) ∧
    (c.regionB = .seconds → s.tb.state = .unset → text = [11, 11]) ∧
    (c.regionB = .seconds → s.tb.state ≠ .unset → text = shownDigits (s.tb.now.ms / 1000 % 60)) ∧
    (c.regionB = .remain ∨ c.regionB = .label → (∀ n j, ¬ s.Ahead c.linked n j) → text = [11, 11]) ∧
    (∀ n j, c.regionB = .remain → s.NextAhead c.linked n j →
      text = shownDigits (((s.bs.plans[n][j]).time * 1000 - s.tb.now.ms + 59999) / 60000)) ∧
    (∀ n j, c.regionB = .label → s.NextAhead c.linked n j →
      text = (match (s.bs.plans[n][j]).label with
              | some l => shownDigits l
              | none => [11, 11])))

/-- What the frame of a display circuit shows: region A from its left end in the positions below the split in force, region B
from its right end in the others, blanks where a string does not reach, and the blink flag (R126 to R134). -/
abbrev State.FrameOk (s : State) (c : CircuitConfig) (f : Frame) : Prop :=
  (f.blink = true ↔ s.Overridden c ∧ (s.dc.state = .panel ∨ s.dc.state = .sounding)) ∧
  ∃ text : List (BitVec 4),
    (∀ (i : Fin 8) (split : Nat), split = (if s.Overridden c then c.drillSplit else c.split) →
      f.codes[i] = if i.val < split then (s.timeShown c.regionA).getD i.val 10 else text.reverse.getD (7 - i.val) 10) ∧
    s.FieldShows c text

/-- The unit, request kind and cell of a row that is a request (R166). -/
def requestOf : Instr → Option (Byte × Byte × MgmtCell)
  | .echo u c => some (u, 0, c)
  | .readPage u c => some (u, 1, c)
  | .writeSetting u c => some (u, 2, c)
  | .readSetting u c => some (u, 3, c)
  | .setCursor u c => some (u, 4, c)
  | .writePart u c => some (u, 5, c)
  | .readPart u c => some (u, 6, c)
  | .clearEntry u c => some (u, 7, c)
  | .clearEvents u c => some (u, 8, c)
  | .clearLog u c => some (u, 9, c)
  | .setDial u c => some (u, 10, c)
  | .unitResetTime c => some (1, 11, c)
  | .unitResetBells c => some (2, 11, c)
  | .unitResetZones c => some (3, 11, c)
  | .unitResetAnnounce c => some (4, 11, c)
  | .unitResetClocks c => some (5, 11, c)
  | .unitResetDrill c => some (6, 11, c)
  | .unitResetInputs c => some (7, 11, c)
  | .stationReset u c => some (u, 12, c)
  | .unknownRequestKind u k c => some (u, k, c)
  | _ => none

/-- The units that accept a request kind (R166). -/
def acceptingUnits (kind : Nat) : List Nat :=
  match kind with
  | 0 => [0, 1, 2, 3, 4, 5, 6, 7]
  | 2 | 3 => [0, 1, 2, 4, 6]
  | 1 | 4 | 5 | 6 | 7 | 8 | 9 | 12 => [0]
  | 10 => [5]
  | 11 => [1, 2, 3, 4, 5, 6, 7]
  | _ => []

/-- The highest setting number of a unit that has settings (R170). -/
def lastSetting (unit : Nat) : Nat :=
  match unit with
  | 2 | 6 => 3
  | 1 => 2
  | _ => 1

/-- A table as R171 lays it out: its code, how many indexes its window holds, and the bytes each part of an entry has. -/
structure TableShape where
  code : Byte
  window : Nat
  sizes : List Nat
deriving DecidableEq, Repr

def Table.shape : Table → TableShape
  | .plan n => ⟨BitVec.ofNat 8 n.val, 48, [4, 3, 2]⟩
  | .dayMap => ⟨8, 7, [1]⟩
  | .except => ⟨9, 32, [3, 1]⟩
  | .pattern => ⟨10, 16, [3, 1]⟩
  | .zone => ⟨11, 16, [2, 2]⟩
  | .circuit => ⟨12, 4, [3, 6]⟩
  | .input => ⟨13, 8, [2, 3]⟩

/-- The payload bytes a request of a kind needs, for WRITE_PART those of the part at the cursor (R166, R171). -/
abbrev State.NeedsBytes (s : State) (kind n : Nat) : Prop :=
  if kind = 5 then s.mu.cursor.table.shape.sizes[s.mu.cursor.part]? = some n
  else n = (match kind with
            | 1 | 4 | 8 => 2
            | 2 => 5
            | 3 => 1
            | 10 => 4
            | _ => 0)

/-- The bytes of a part of an entry, in the order of the fields R171 names; the rest of its 26 bytes is 0. -/
def State.partShown (s : State) (table : Table) (index part : Nat) : List Byte :=
  let flag (b : Bool) : Byte := if b then 1 else 0
  let plan (p : PlanChoice) : Byte :=
    match p with
    | some n => BitVec.ofNat 8 n.val
    | none => 255
  match table with
  | .plan n =>
    let e : PlanEvent := s.bs.plans[n][(Fin.ofNat 48 index)]
    if part = 0 then flag e.valid :: be24 (BitVec.ofNat 24 e.time)
    else if part = 1 then
      be16 e.zones ++ [match e.action with
                       | .bell => 0
                       | .chime => 1
                       | .mark => 2]
    else
      [BitVec.ofNat 8 e.pattern.val, match e.label with
                                     | some l => BitVec.ofNat 8 l
                                     | none => 255]
  | .dayMap => [plan s.bs.dayMap[(Fin.ofNat 7 index)]]
  | .except =>
    let e : Exception := s.bs.exceptions[(Fin.ofNat 32 index)]
    if part = 0 then flag e.valid :: be16 e.day else [plan e.plan]
  | .pattern =>
    let p : Pattern := s.bo.patterns[(Fin.ofNat 16 index)]
    if part = 0 then [BitVec.ofNat 8 (p.lead / 100), BitVec.ofNat 8 p.a, BitVec.ofNat 8 p.b]
    else [BitVec.ofNat 8 p.strokes]
  | .zone =>
    let r := s.zone (Fin.ofNat 16 index)
    if part = 0 then [flag r.enabled, flag r.inDrill] else [BitVec.ofNat 8 r.maxGain, BitVec.ofNat 8 r.defaultGain]
  | .circuit =>
    let c := (s.circuit (Fin.ofNat 4 index)).config
    if part = 0 then
      [match c.mode with
       | .off => 0
       | .minute => 1
       | .half => 2
       | .display => 3, BitVec.ofNat 8 (c.width / 100), BitVec.ofNat 8 c.hold]
    else
      [BitVec.ofNat 8 c.split,
       match c.regionA with
       | .hhmm24 => 0
       | .hhmm12 => 1
       | .hhmmss => 2,
       match c.regionB with
       | .blank => 0
       | .remain => 1
       | .label => 2
       | .seconds => 3, BitVec.ofNat 8 c.drillSplit] ++ be16 c.linked
  | .input =>
    let x := s.input (Fin.ofNat 8 index)
    if part = 0 then
      [match x.function with
       | .none => 0
       | .drillStart => 1
       | .drillSilence => 2
       | .muster => 3
       | .allClear => 4
       | .panelAlarm => 5
       | .bellRing => 6
       | .general => 7, flag x.activeHigh]
    else BitVec.ofNat 8 x.pattern.val :: be16 x.zones

/-! ## What the pages show (R172) -/

/-- An instant on a page: day and ms, and for an absent one the ms 0xFFFFFFFF under any day (R172, log 30). -/
abbrev ShowsInstant (t : Option Instant) (bytes : List Byte) : Prop :=
  (∀ x, t = some x → bytes = be16 x.day ++ be32 (BitVec.ofNat 32 x.ms)) ∧
    (t = none → ∃ day, bytes = be16 day ++ be32 0xFFFFFFFF)

/-- An elapsed time on a page: 3 bytes, any where it is absent (R172, log 30). -/
abbrev ShowsElapsed (e : Option Nat) (bytes : List Byte) : Prop :=
  bytes.length = 3 ∧ ∀ x, e = some x → bytes = be24 (BitVec.ofNat 24 x)

/-- An event the lookahead for every zone counts: of today's plan, later than now and than H, on some zone (R41). -/
abbrev State.Upcoming (s : State) (x : Instant) : Prop :=
  ∃ (n : Fin 8) (j : Fin 48) (h : Instant), s.tb.state ≠ .unset ∧ s.bs.mark = some h ∧ s.bs.selection = .plan n ∧
    (s.bs.plans[n][j]).valid = true ∧ (s.bs.plans[n][j]).zones ≠ 0 ∧
    x = { day := s.tb.now.day, ms := (s.bs.plans[n][j]).time * 1000 } ∧
    x.later { day := s.tb.now.day, ms := s.tb.now.ms } = true ∧ x.later h = true

/-- The next event that page 4 shows (R41, R44). -/
abbrev State.NextEvent (s : State) (next : Option Instant) : Prop :=
  (next = none → ∀ x, ¬ s.Upcoming x) ∧
    (∀ x, next = some x → s.Upcoming x ∧ ∀ y, s.Upcoming y → x.ms ≤ y.ms)

/-- The flags byte of a drill record: bit 7 muster, bit 6 silence, bit 5 limit, bits 4 to 2 outcome, bit 1 source, bit 0 kind
(R172). -/
def recordFlags (r : DrillRecord) : Byte :=
  BitVec.ofNat 8
    ((if r.muster.isSome then 128 else 0) + (if r.silence.isSome then 64 else 0) + (if r.limit then 32 else 0) +
      4 * (match r.outcome with
           | .opened => 0
           | .cleared => 1
           | .aborted => 2
           | .superseded => 3
           | .reset => 4) +
      (if r.source = .input then 2 else 0) + (if r.kind = .panel then 1 else 0))

/-- The fields of a drill record on pages 9 to 12; a page with no record has outcome 7, no elapsed time present and an absent
start instant, and any bytes elsewhere (R149, R172, log 30). -/
abbrev ShowsRecord (r : Option DrillRecord) (bytes : List Byte) : Prop :=
  ∃ (flags : Byte) (number start silence muster musters endElapsed deferred lost : List Byte),
    bytes = [flags] ++ number ++ start ++ silence ++ muster ++ musters ++ endElapsed ++ deferred ++ lost ∧
    number.length = 2 ∧ musters.length = 2 ∧ endElapsed.length = 3 ∧ deferred.length = 2 ∧ lost.length = 2 ∧
    (∀ x, r = some x →
      flags = recordFlags x ∧ number = be16 x.number ∧ ShowsInstant x.start start ∧ ShowsElapsed x.silence silence ∧
      ShowsElapsed x.muster muster ∧ musters = be16 x.musters ∧ endElapsed = be24 (BitVec.ofNat 24 x.endElapsed) ∧
      deferred = be16 x.deferred ∧ lost = be16 x.lost) ∧
    (r = none → flags &&& 0xFC = 0x1C ∧ ShowsInstant none start ∧ silence.length = 3 ∧ muster.length = 3)

/-- The bytes a page's section shows, from byte 0 on; the rest of its 30 bytes is 0 (R172). -/
def State.PageShows (s : State) (page k : Nat) (bytes : List Byte) : Prop :=
  match page with
  | 0 => bytes = [0x3A, 0x01, 0xB8, 0x41, s.mu.station.setWidth 8, BitVec.ofNat 8 s.mu.group.val, s.mu.cause.code]
  | 1 =>
    (∀ e, s.mu.log = some e →
      bytes = [1, if s.mu.more then 1 else 0] ++ e.bytes ++ be16 e.received ++ be16 e.computed) ∧
    (s.mu.log = none → ∃ rest, rest.length = 12 ∧ bytes = [0, if s.mu.more then 1 else 0] ++ rest)
  | 2 => bytes = be16 s.mu.flags ++ be16 s.mu.mask ++ [BitVec.ofNat 8 s.mu.queue.length]
  | 3 =>
    bytes = [s.tb.state.code] ++
      (if s.tb.state = .unset then [0, 0, 0, 0, 0, 0, 0]
       else be16 s.tb.now.day ++ [BitVec.ofNat 8 s.tb.now.weekday.val] ++ be32 (BitVec.ofNat 32 s.tb.now.ms)) ++
      be32 (BitVec.ofInt 32 s.tb.slew) ++ be32 (BitVec.ofInt 32 s.tb.keptStep) ++
      be24 (BitVec.ofNat 24 s.tb.lossTimer) ++ be16 (BitVec.ofNat 16 s.tb.stepThreshold)
  | 4 =>
    ∃ (mark next pending : List Byte) (event : Option Instant),
      bytes = [s.bs.selection.code, s.bs.source.code] ++ mark ++ next ++
        [BitVec.ofNat 8 s.bs.pendingBells.length] ++ pending ++
        [BitVec.ofNat 8 s.bs.deferred.length,
          BitVec.ofNat 8 ((if s.bs.marker then 1 else 0) + if s.bs.replay = .running then 2 else 0)] ++
        be16 (BitVec.ofNat 16 s.bs.spacing) ∧
      ShowsInstant s.bs.mark mark ∧ s.NextEvent event ∧ ShowsInstant event next ∧
      (s.bs.pendingBells = [] → pending = [0, 0, 0, 0xFF, 0xFF, 0xFF, 0xFF]) ∧
      (∀ p rest, s.bs.pendingBells = p :: rest →
        pending = p.id :: (be16 p.due.day ++ be32 (BitVec.ofNat 32 p.due.ms)))
  | 5 =>
    bytes = ((List.finRange 8).flatMap fun i =>
      let r := s.zone (Fin.ofNat 16 (8 * k + i.val))
      [BitVec.ofNat 8 (r.owner.code.toNat + if r.releasing then 128 else 0), r.cls.code,
        r.bellOwner.code ++ claimantCode r.claimant])
  | 6 =>
    bytes = ((List.finRange 16).map fun z => BitVec.ofNat 8 (s.zone z).gain) ++
      ((List.finRange 4).map fun i =>
        ((s.zone (Fin.ofNat 16 (4 * i.val))).ramp.code ++ (s.zone (Fin.ofNat 16 (4 * i.val + 1))).ramp.code) ++
          ((s.zone (Fin.ofNat 16 (4 * i.val + 2))).ramp.code ++ (s.zone (Fin.ofNat 16 (4 * i.val + 3))).ramp.code))
  | 7 =>
    bytes = ((List.finRange 2).flatMap fun i =>
      let t := s.slot (Fin.ofNat 4 (2 * k + i.val))
      [t.state.code, t.channel.getD 255, BitVec.ofNat 8 t.priority, BitVec.ofNat 8 t.openOrder] ++ be16 t.requested ++
        be16 t.granted ++
        [BitVec.ofNat 8 t.targetGain, BitVec.ofNat 8 t.buffer.length, if t.playout then 1 else 0] ++
        be24 (BitVec.ofNat 24 t.audioTimer))
  | 8 =>
    ∃ polarity : CircuitId → Bool,
      (∀ (n : CircuitId) (x : Polarity), (s.circuit n).inFlight = some x → polarity n = decide (x = .neg)) ∧
      bytes = ((List.finRange 2).flatMap fun i =>
        let n : CircuitId := Fin.ofNat 4 (2 * k + i.val)
        let x := s.circuit n
        [x.config.mode.code, x.state.code,
          BitVec.ofNat 8
            ((if x.inFlight.isSome then 1 else 0) + (if polarity n then 2 else 0) + (if x.gap.isSome then 4 else 0) +
              if x.retained.polarity = .neg then 8 else 0)] ++
          be16 (BitVec.ofNat 16 x.retained.dial) ++
          be16 (if x.state = .off ∨ x.state = .waitTime ∨ x.config.mode.positions = none ∨ s.tb.state = .unset then 0xFFFF
            else BitVec.ofNat 16 (targetAt x.config.mode s.tb.now)) ++
          be16 x.impulses)
  | 9 | 10 | 11 | 12 =>
    ∃ record, ShowsRecord s.dc.ring[page - 9]? record ∧
      bytes = record ++ [s.dc.state.code.setWidth 8] ++ be16 s.dc.seized ++
        be24 (BitVec.ofNat 24 (s.dc.elapsedAt s.tb.tick))
  | 13 =>
    bytes = ((if k = 0 then
        [s.li.goodCells, s.li.damagedCells, s.li.shortCells, s.li.unknownKind, s.li.syncLosses, s.li.consumed,
          s.li.sent, s.tb.validCount, s.tb.malformedCount, s.tb.stepCount, s.mu.dropped, s.mu.malformed, s.mu.lost,
          s.bs.planFired, s.bs.planFiredLate]
      else
        [s.bs.planDeferred, s.bs.planSkipped, s.bs.lineFired, s.bs.lineFiredLate, s.bs.lineDeferred,
          s.bs.lineSkipped, s.bs.lineMalformed, s.bs.lineListFull, s.bs.lineCancelled, s.bs.inputRung,
          s.bs.inputDeferred, s.bs.deferredLost, s.bs.deferredOverruns, s.bs.replayed,
          s.bs.replayDiscarded]).flatMap be16)
  | 14 =>
    bytes = ((if k = 0 then
        [s.au.opened, s.au.reopened, s.au.channelsFull, s.au.malformed, s.au.closes, s.au.timedOut, s.au.accepted,
          s.au.unbound, s.au.discarded, s.au.overrun, s.au.underrun, s.au.lost, s.au.concealed, s.au.stale,
          s.dc.startedLine]
      else
        [s.dc.startedInput, s.dc.ignored, s.dc.malformed, s.dc.inPanel, s.dc.episodes,
          s.dc.localRefused]).flatMap be16)
  | _ =>
    bytes = ((List.finRange 8).map fun n =>
      let x := s.input n
      BitVec.ofNat 8
        (x.function.code.toNat + (if x.activeHigh then 8 else 0) + (if x.level then 16 else 0) +
          (if x.level = x.activeHigh then 32 else 0) + if x.changed then 64 else 0))

/-- A request taken here, before it acts: its cell counted, and its reply behind the entries that waited (R162, R165). -/
def State.asked (a : Answered) (s : State) : State :=
  { s with
    mu := { s.mu with queue := s.mu.queue ++ [a.reply] },
    li := { s.li with missing := 0, goodCells := satInc s.li.goodCells,
                      consumed := if a.consumed then satInc s.li.consumed else s.li.consumed } }

/-- A request has acted: the head of the queue goes out in a consumed request's own place in the stream, and a broadcast goes
on as it came (R162, R163). -/
def State.sends (a : Answered) (s : State) : State :=
  if a.consumed then
    match s.mu.queue with
    | [] => s
    | first :: rest =>
      { s with mu := { s.mu with queue := rest }, li := { s.li with sent := satInc s.li.sent, out := first.cell } }
  else { s with li := { s.li with out := a.cell } }

/-- A request executed here that raised no notice (R162, R163, R165). -/
def State.consumes (a : Answered) (s : State) : State := (s.asked a).sends a

/-! ## What a committed record and a panel condition leave behind -/

/-- The cursor at part 0 of the index after one of a table, with nothing staged (R171). -/
def State.movedPast (s : State) (table : Table) (index : Nat) : State :=
  { s with mu := { s.mu with cursor := { table, index := index + 1, part := 0 }, staged := [] } }

/-- Today's selection worked out again from the lists as they stand; while UNSET there is none (R28, R29, log 15). -/
def State.selecting (s : State) (bs : BellSequencer) : State :=
  { s with bs :=
      if s.tb.state = .unset then { bs with selection := .none, source := .none }
      else { bs with selection := (bs.select s.tb.now.day s.tb.now.weekday).1,
                     source := (bs.select s.tb.now.day s.tb.now.weekday).2 } }

/-- Frames have stopped, and one being sent is cut (R135). -/
def Circuit.framesStopped (c : Circuit) : Circuit :=
  { c with frameTimer := 0, sendLeft := 0, frame := if c.sendLeft = 0 then c.frame else none }

/-- Between two states a CIRCUIT record was committed on one circuit and acted at once, by what it changed (R121, R135). -/
abbrev State.CircuitTakes (s t : State) (k : CircuitId) (g : CircuitConfig) : Prop :=
  t = { s with cc := t.cc } ∧ (∀ j : CircuitId, j ≠ k → t.circuit j = s.circuit j) ∧
    ∀ c : Circuit,
      c = (if (s.circuit k).config.mode = .display ∧ g.mode ≠ .display then (s.circuit k).framesStopped
           else s.circuit k) →
      (g.mode = .off → t.circuit k = { c with config := g, state := .off, gap := none }) ∧
      (g.mode = .minute ∨ g.mode = .half →
        t.circuit k = ({ c with config := g } : Circuit).decide
          (if s.tb.state = .unset then none else some (targetAt g.mode s.tb.now))) ∧
      (g.mode = .display → c.config.mode = .display →
        t.circuit k = { c with config := g, state := .off, gap := none }) ∧
      (g.mode = .display → c.config.mode ≠ .display →
        ∃ f, s.FrameOk g f ∧
          t.circuit k = { c with config := g, state := .off, gap := none, frame := some f, sendLeft := 8,
                                 frameTimer := 500 })

/-- An input is a PANEL_ALARM input that stands active (R147, R154). -/
abbrev State.alarms (s : State) (n : InputId) : Prop :=
  (s.input n).function = .panelAlarm ∧ (s.input n).level = (s.input n).activeHigh

/-- Between two states the panel condition began, named for an input: the OPEN record closes as SUPERSEDED, every enabled
zone is seized silent, and DRILL_STATE and PANEL_ALARM are posted (R147, R150). -/
abbrev State.EntersPanel (s t : State) (n : InputId) : Prop :=
  ∀ (before : Byte) (number : BitVec 16) (ring : List DrillRecord),
    (s.dc.state = .idle ∧ s.dc.openRecord = none ∧ before = 0 ∧ number = 0 ∧ ring = s.dc.ring ∨
      (∃ r rs, s.dc.ring = r :: rs ∧ number = r.number ∧
        (s.dc.state = .clearing ∧ s.dc.openRecord = none ∧ before = 3 ∧ ring = r :: rs ∨
          (s.dc.state = .sounding ∧ before = 1 ∨ s.dc.state = .silenced ∧ before = 2) ∧
            s.dc.openRecord = some 0 ∧
            ring = { r with outcome := .superseded, endElapsed := s.dc.elapsedAt s.tb.tick } :: rs))) →
    t.dc = { s.dc with
      state := .panel, named := 0, seized := s.enabledZones, drillStart := none, evacStart := none,
      evacSignal := false, chimeStart := none, panelDeferred := 0, panelLost := 0, openRecord := none, ring,
      panelStart := some (s.tb.tick, s.startInstant), episodes := satInc s.dc.episodes } ∧
    t.mu = (s.mu.post 13 ([0x40 ||| before, 4] ++ be16 number)).post 14
      [BitVec.ofNat 8 n.val, before,
        BitVec.ofNat 8 ((List.finRange 16).filter fun z : Zone => (s.zone z).enabled).length, 0] ∧
    t.bs = (if s.dc.state = .idle then { s.bs with replay := .idle, spacing := 0 } else s.bs) ∧
    t.tb = s.tb ∧ t.cc = s.cc ∧ t.ci = s.ci ∧ t.li = s.li ∧ t.pending = s.pending ∧
    ∀ z : Zone,
      ((s.zone z).enabled = true →
        t.zone z = (s.zone z).seizedAs (.rank 7) .silent 0 .drill ∧ (t.bo.players[z]).phase = .done) ∧
      ((s.zone z).enabled = false → memSet z s.dc.seized = false → s.KeepsZone t z)

/-- Between two states the panel condition ended, before replay begins: the panel record is placed, the building is handed
back, and DRILL_STATE is posted (R146, R148, R149). -/
abbrev State.LeavesPanel (s t : State) : Prop :=
  ∀ start instant, s.dc.panelStart = some (start, instant) → s.dc.openRecord = none →
    t.dc = s.dc.resting (({ kind := .panel, number := 0, source := .input, start := instant, silence := none,
                            limit := false, muster := none, musters := 0,
                            endElapsed := min 16777215 (s.tb.tick - start).toNat, outcome := .cleared,
                            deferred := s.dc.panelDeferred, lost := s.dc.panelLost } :: s.dc.ring).take 4) ∧
    t.mu = s.mu.post 13 [0x04, 4, 0, 0] ∧ t.ci = s.ci ∧ t.li = s.li ∧ s.HandsBack t

/-- A record committed on an input acts on no edge; the panel condition is worked out again, and where it begins or ends it
is acted on behind the reply (R152). `s` is the state with the record and the reply, `i` the request and `a` its answer. -/
abbrev State.PanelFollows (s : State) (a : Answered) (before : State) (i : Instr) : Prop :=
  ((s.dc.state = .panel ↔ ∃ n, s.alarms n) → exec i before = .next (s.sends a)) ∧
  (∀ n : InputId, s.dc.state ≠ .panel → s.alarms n → (∀ m : InputId, m < n → ¬ s.alarms m) →
    ∃ t, exec i before = .next (t.sends a) ∧ s.EntersPanel t n) ∧
  (s.dc.state = .panel → (∀ n, ¬ s.alarms n) →
    ∃ t, exec i before = .next (t.replayBegin.sends a) ∧ s.LeavesPanel t)

/-- A WRITE_SETTING executed here takes a value t for the value v it carries, answered CLAMPED where they differ, and leaves
a state behind its reply (R165, R170). -/
abbrev State.Writes (s : State) (unit : Byte) (c : MgmtCell) (v t : Nat) (after : State) : Prop :=
  exec (.writeSetting unit c) s = .next
    (State.consumes
      (s.reply unit 2 c (if t = v then .ok else .clamped) (c.payload[0] :: be32 (BitVec.ofNat 32 t))) after)

/-- A WRITE_SETTING executed here takes a value as `State.Writes` says, and an event of the station's own that the new value
makes due comes at once behind its reply (R17, R105, R143). -/
abbrev State.WritesThen (s : State) (unit : Byte) (c : MgmtCell) (v t : Nat) (set : State → State) (event : Instr) : Prop :=
  ∀ (a : Answered) (w : State),
    a = s.reply unit 2 c (if t = v then .ok else .clamped) (c.payload[0] :: be32 (BitVec.ofNat 32 t)) →
    exec event (set (s.asked a)) = .next w → exec (.writeSetting unit c) s = .next (w.sends a)

end Sys2Proof.Machine
end

