-- ==== Sys2Proof/WellFormed.lean ====
section
/-! DEFINITION. When a command is one its row describes. -/

namespace Sys2Proof

/-- Payload bytes beyond the payload length are 0 (Formats). -/
def MgmtCell.paddingZero (c : MgmtCell) : Bool :=
  (List.finRange 30).all fun i => decide (i.val < c.length.toNat) || c.payload[i] == 0

/-- The destination field of a MGMT cell is a station 0..63 (Formats). -/
def MgmtCell.destinationOk (c : MgmtCell) : Bool := decide (c.destination.toNat ≤ 63)

/-- What the Formats section asks of every MGMT cell. -/
def MgmtCell.wellFormed (c : MgmtCell) : Bool := c.paddingZero && c.destinationOk

/-- A request that no other row stands for: a kind above 12, or a UNIT_RESET of a unit outside 1..7 (R165, log 29). -/
def unknownRequest (unit kind : Byte) : Bool :=
  decide (12 < kind.toNat) || (kind == 11 && (unit == 0 || decide (7 < unit.toNat)))

/-- A command is well formed when its operands are ones its row of spec/opcode_table.json describes. The rows named
here restrict their operands; every other row takes any operand its type has. -/
def Instr.wellFormed : Instr → Bool
  | .sessionOpen c => decide (c.channel.toNat ≤ 7)
  | .sessionClose c => decide (c.channel.toNat ≤ 7)
  | .sessionMalformed code c => (code != 1 && code != 2) || decide (7 < c.channel.toNat)
  | .drillMalformed command _ => command == 0 || decide (5 < command.toNat)
  | .unknownKindCell kind _ => decide (9 ≤ kind.toNat)
  | .damagedCell c => !Machine.cellGood c
  | .mgmtForward _ _ c => c.wellFormed
  | .echo _ c => c.wellFormed
  | .readPage _ c => c.wellFormed
  | .writeSetting _ c => c.wellFormed
  | .readSetting _ c => c.wellFormed
  | .setCursor _ c => c.wellFormed
  | .writePart _ c => c.wellFormed
  | .readPart _ c => c.wellFormed
  | .clearEntry _ c => c.wellFormed
  | .clearEvents _ c => c.wellFormed
  | .clearLog _ c => c.wellFormed
  | .setDial _ c => c.wellFormed
  | .unitResetTime c => c.wellFormed
  | .unitResetBells c => c.wellFormed
  | .unitResetZones c => c.wellFormed
  | .unitResetAnnounce c => c.wellFormed
  | .unitResetClocks c => c.wellFormed
  | .unitResetDrill c => c.wellFormed
  | .unitResetInputs c => c.wellFormed
  | .stationReset _ c => c.wellFormed
  | .unknownRequestKind unit kind c => c.wellFormed && unknownRequest unit kind
  | .powerOn _ => true
  | .resetPin _ => true
  | .tick _ => true
  | .beacon _ => true
  | .beaconLossExpiry => true
  | .bellCancel _ _ => true
  | .bellImmediate _ => true
  | .bellBooking _ => true
  | .patternPhaseEnd _ => true
  | .replaySpacingExpiry => true
  | .rampStep _ => true
  | .schedChimeEnd => true
  | .audio _ => true
  | .sessionChimeEnd _ => true
  | .playoutTake _ => true
  | .sessionTimeout _ => true
  | .impulseEnd _ => true
  | .gapEnd _ => true
  | .frameMoment _ => true
  | .drillStart _ => true
  | .drillSilence _ => true
  | .drillMuster _ => true
  | .drillAllClear _ => true
  | .drillAbort _ => true
  | .soundLimit => true
  | .allClearChimeEnd => true
  | .evacSignalPhase => true
  | .debouncedChange _ => true
  | .emptyCell _ => true
  | .replyCell _ => true
  | .noticeCell _ => true
  | .shortCell => true
  | .missingStart => true
  | .syncCell _ _ => true
  | .sourcedEmptyCell => true

end Sys2Proof
end

