-- ==== Sys2Proof/Certificates/Slice0/Obligations.lean ====
section
/-! DEFINITION. The statements for the provers. Each docstring names the section or rule it formalises; a clause that
rests on a choice of the model names its log entry. -/

section

open Sys2Proof Sys2Proof.Machine

/-! ## The machine -/

/-- A step takes the command at the front of the queue and runs it on the state with the queue's rest. The queue of
waiting commands is the model's own (log 1). -/
def Obligations.StepRunsFrontCommand : Prop :=
  ∀ (c : Instr) (rest : List Instr) (s : State),
    step { s with pending := c :: rest } = exec c { s with pending := rest }

/-- Every command completes: it answers a next state, and it leaves the commands that wait as they are (the queue of
commands is the model's own, log 1). -/
def Obligations.EveryCommandCompletes : Prop :=
  ∀ (i : Instr) (s : State), ∃ t, exec i s = .next t ∧ t.pending = s.pending

/-! ## Start-up -/

/-- POWER_ON and RESET_PIN bring every block to its start values from any state, every counter to 0 among them, keep the
retained store, read the address straps, and queue the RESTART notice at the head of an empty queue (01 to 10, resets; the
fields that hold no value then, and the advance a tick still owes, are left out but for the latter: logs 4 and 6). -/
def Obligations.StartUpTakesPowerOnValues : Prop :=
  ∀ (straps : BitVec 6) (s : State) (i : Instr) (cause : RestartCause),
    (i = .powerOn straps ∧ cause = .powerOn ∨ i = .resetPin straps ∧ cause = .resetPin) →
    ∃ t, exec i s = .next t ∧
      (t.tb.state = .unset ∧ t.tb.slew = 0 ∧ t.tb.lossTimer = 0 ∧ t.tb.tick = 0 ∧ t.tb.phase = 0 ∧ t.tb.keptStep = 0 ∧
        t.tb.validCount = 0 ∧ t.tb.malformedCount = 0 ∧ t.tb.stepCount = 0 ∧ t.tb.stepThreshold = 2000 ∧
        t.tb.lossLimit = 10 ∧ t.tb.delayComp = 0 ∧ t.tb.advanceDue = false) ∧
      ((∀ n : Fin 8, ∀ j : Fin 48, t.bs.plans[n][j] = PlanEvent.empty) ∧ (∀ w : Fin 7, t.bs.dayMap[w] = none) ∧
        (∀ j : Fin 32, t.bs.exceptions[j] = Exception.empty) ∧ t.bs.mark = none ∧ t.bs.selection = .none ∧
        t.bs.source = .none ∧ t.bs.pendingBells = [] ∧ t.bs.deferred = [] ∧ t.bs.marker = false ∧
        t.bs.replay = .idle ∧ t.bs.spacing = 0 ∧ t.bs.lateGrace = 60 ∧ t.bs.replayPolicy = .latest ∧
        t.bs.replaySpacing = 5 ∧ t.bs.replayAge = 1800) ∧
      (∀ count ∈ [t.bs.planFired, t.bs.planFiredLate, t.bs.planDeferred, t.bs.planSkipped, t.bs.lineFired,
        t.bs.lineFiredLate, t.bs.lineDeferred, t.bs.lineSkipped, t.bs.lineMalformed, t.bs.lineListFull,
        t.bs.lineCancelled, t.bs.inputRung, t.bs.inputDeferred, t.bs.deferredLost, t.bs.deferredOverruns,
        t.bs.replayed, t.bs.replayDiscarded], count = 0) ∧
      (t.bo.patterns[(0 : Fin 16)] = { lead := 3000, a := 0, b := 0, strokes := 0 } ∧
        (∀ j : Fin 16, j ≠ 0 → t.bo.patterns[j] = { lead := 0, a := 0, b := 0, strokes := 0 }) ∧
        (∀ z : Zone, (t.bo.players[z]).phase = .done)) ∧
      (∀ z : Zone, t.zone z = ZoneRec.initial) ∧ (∀ n : SlotId, t.slot n = Slot.free) ∧
      t.au.sessionTimeout = 3 ∧ t.au.chimeGain = 56 ∧
      (∀ count ∈ [t.au.opened, t.au.reopened, t.au.channelsFull, t.au.malformed, t.au.closes, t.au.timedOut,
        t.au.accepted, t.au.unbound, t.au.discarded, t.au.overrun, t.au.underrun, t.au.lost, t.au.concealed,
        t.au.stale], count = 0) ∧
      (∀ k : CircuitId, (t.circuit k).retained = (s.circuit k).retained ∧ (t.circuit k).config = CircuitConfig.initial ∧
        (t.circuit k).state = .off ∧ (t.circuit k).inFlight = none ∧ (t.circuit k).gap = none ∧
        (t.circuit k).impulses = 0 ∧ (t.circuit k).resetPending = false) ∧
      (t.dc.state = .idle ∧ t.dc.named = 0 ∧ t.dc.seized = 0 ∧ t.dc.drillStart = none ∧ t.dc.evacStart = none ∧
        t.dc.chimeStart = none ∧ t.dc.panelStart = none ∧ t.dc.ring = [] ∧ t.dc.openRecord = none ∧
        t.dc.soundLimit = 180 ∧ t.dc.drillGain = 72 ∧ t.dc.localStart = false) ∧
      (∀ count ∈ [t.dc.startedLine, t.dc.startedInput, t.dc.ignored, t.dc.malformed, t.dc.inPanel, t.dc.episodes,
        t.dc.localRefused, t.dc.panelDeferred, t.dc.panelLost], count = 0) ∧
      (∀ n : InputId, (t.input n).function = .none ∧ (t.input n).activeHigh = false ∧ (t.input n).pattern = 0 ∧
        (t.input n).zones = 0 ∧ (t.input n).level = true ∧ (t.input n).timer = 0 ∧ (t.input n).changed = false) ∧
      (t.li.sync = .down ∧ t.li.good = 0) ∧
      (∀ count ∈ [t.li.goodCells, t.li.damagedCells, t.li.shortCells, t.li.unknownKind, t.li.syncLosses,
        t.li.consumed, t.li.sent], count = 0) ∧
      t.mu.station = (if straps = 0 ∨ straps = 63 then 0 else straps) ∧
      t.mu.queue = [.notice t.mu.station 0 0 [cause.code, t.mu.station.setWidth 8, 0, 0]] ∧
      t.mu.flags = 1 ∧ t.mu.mask = 0xFFFF ∧ t.mu.log = none ∧ t.mu.more = false ∧ t.mu.staged = [] ∧
      t.mu.cursor = Cursor.start ∧ t.mu.group = 0 ∧ t.mu.cause = cause ∧ t.mu.dropped = 0 ∧ t.mu.malformed = 0 ∧
      t.mu.lost = 0

/-- The state right after reset meets every law the other statements say each step keeps; its queue of waiting commands,
which is the model's own, is empty (log 1). -/
def Obligations.ResetStateMeetsLaws : Prop :=
  State.reset.tb.Ok ∧ State.reset.MarkLaw ∧ State.reset.FeedLaw ∧ State.reset.SlotLaw ∧ State.reset.SeizureLaw ∧
    State.reset.DrillLaw ∧ State.reset.QueueLaw ∧ State.reset.PanelLaw ∧ (∀ k : CircuitId, (State.reset.circuit k).Ok) ∧
    State.reset.pending = []

/-! ## Time -/

/-- A tick counts the tick and its boundary phase, and in LOCKED and HOLDOVER the loss timer; its advance is then owed, and
is made by the table of R4: in LOCKED and HOLDOVER local time advances by the table's amount and S moves as it gives, a
carry goes into the next day and weekday, and the impulse circuits whose target has changed decide; in UNSET the record and
S are left. A tick given whole is its count and then its advance; a count that meets an advance still owed makes it first
(01, the tick; 06, targets; the two parts of a tick are log 4). -/
def Obligations.TickAdvancesLocalTime : Prop :=
  ∀ (contacts : BitVec 8) (s : State),
    (s.tb.advanceDue = false →
      (∃ t, exec (.tick (.count contacts)) s = .next t ∧
        t.tb = { s.tb with
          tick := s.tb.tick + 1, phase := (s.tb.phase + 1) % 100, advanceDue := true,
          lossTimer := if s.tb.state = .unset then s.tb.lossTimer else min 16777215 (s.tb.lossTimer + 1) }) ∧
      exec (.tick .advance) s = .next s) ∧
    (∀ t, exec (.tick (.count contacts)) s = .next t → exec (.tick (.whole contacts)) s = exec (.tick .advance) t) ∧
    (∀ t, s.tb.advanceDue = true → exec (.tick .advance) s = .next t →
      exec (.tick (.count contacts)) s = exec (.tick (.count contacts)) t) ∧
    (s.tb.advanceDue = true → s.tb.state = .unset →
      exec (.tick .advance) s = .next { s with tb := { s.tb with advanceDue := false } }) ∧
    (s.tb.advanceDue = true → s.tb.state ≠ .unset →
      ∃ (t : State) (n : Nat), exec (.tick .advance) s = .next t ∧
        ((s.tb.phase ≠ 0 ∧ n = 1 ∧ t.tb.slew = s.tb.slew) ∨
          (s.tb.phase = 0 ∧ 0 < s.tb.slew ∧ n = 2 ∧ t.tb.slew = s.tb.slew - 1) ∨
          (s.tb.phase = 0 ∧ s.tb.slew < 0 ∧ n = 0 ∧ t.tb.slew = s.tb.slew + 1) ∨
          (s.tb.phase = 0 ∧ s.tb.slew = 0 ∧ n = 1 ∧ t.tb.slew = s.tb.slew)) ∧
        t.tb = { s.tb with now := t.tb.now, slew := t.tb.slew, advanceDue := false } ∧
        (s.tb.now.ms + n < 86400000 → t.tb.now = { s.tb.now with ms := s.tb.now.ms + n }) ∧
        (86400000 ≤ s.tb.now.ms + n →
          t.tb.now = { day := s.tb.now.day + 1, weekday := s.tb.now.weekday + 1, ms := s.tb.now.ms + n - 86400000 }) ∧
        (n = 0 → t = { s with tb := t.tb }) ∧
        (∀ k : CircuitId, t.circuit k =
          if targetAt (s.circuit k).config.mode t.tb.now = targetAt (s.circuit k).config.mode s.tb.now then s.circuit k
          else (s.circuit k).decide (t.target k)) ∧
        t.ci = s.ci ∧ t.li = s.li)

/-- The counting of a tick counts every interval on by one ms, in every time state: the phases of patterns, the cadences of
ramps and of playout, the last-audio timers of LIVE slots, the impulses, gaps and frames of the circuits, the spacing
timer and the ms the line is DOWN; it samples the contact pins, and nothing else changes. In UNSET that is the whole tick
(01 the tick, 03 pattern players and replay, 04 gain, 05 playout and session timeout, 06 impulses, 07 frames, 08 contact
inputs, 09 sync; the counting of the pins is log 9, a frame's sending log 27, the limit of the ms DOWN log 31, and the
advance that is then owed log 4). -/
def Obligations.TickCountsIntervalsWhileUnset : Prop :=
  ∀ (contacts : BitVec 8) (s : State), s.tb.advanceDue = false →
    ∃ t, exec (.tick (.count contacts)) s = .next t ∧
      t.tb = { s.tb with
        tick := s.tb.tick + 1, phase := (s.tb.phase + 1) % 100, advanceDue := true,
        lossTimer := if s.tb.state = .unset then s.tb.lossTimer else min 16777215 (s.tb.lossTimer + 1) } ∧
      t.bo.patterns = s.bo.patterns ∧
      (∀ z : Zone, t.bo.players[z] =
        if (s.bo.players[z]).phase = .done then s.bo.players[z]
        else { s.bo.players[z] with timeLeft := (s.bo.players[z]).timeLeft - 1 }) ∧
      (∀ z : Zone, t.zone z =
        if (s.zone z).ramp = .steady then s.zone z else { s.zone z with rampTimer := (s.zone z).rampTimer - 1 }) ∧
      t.au = { s.au with slots := t.au.slots } ∧
      (∀ n : SlotId, t.slot n =
        { s.slot n with
          takeTimer := if (s.slot n).playout then (s.slot n).takeTimer - 1 else (s.slot n).takeTimer,
          audioTimer := if (s.slot n).state = .live then min 16777215 ((s.slot n).audioTimer + 1)
            else (s.slot n).audioTimer }) ∧
      (∀ k : CircuitId, t.circuit k =
        { s.circuit k with
          impulseLeft := (s.circuit k).impulseLeft - 1, gap := (s.circuit k).gap.map fun left => left - 1,
          frameTimer := (s.circuit k).frameTimer - 1, sendLeft := (s.circuit k).sendLeft - 1 }) ∧
      (∀ n : InputId, t.input n =
        { s.input n with
          pin := contacts.getLsbD n.val,
          timer := if contacts.getLsbD n.val = (s.input n).level then 0 else min 20 ((s.input n).timer + 1) }) ∧
      t.li = { s.li with downMs := if s.li.sync = .down then min 4294967295 (s.li.downMs + 1) else s.li.downMs } ∧
      t.bs = { s.bs with spacing := s.bs.spacing - 1 } ∧ t.dc = s.dc ∧ t.mu = s.mu ∧ t.pending = s.pending ∧
      (s.tb.state = .unset →
        exec (.tick (.whole contacts)) s = .next { t with tb := { t.tb with advanceDue := false } })

/-- A time advance from a to b crosses each valid event of the active plan in (max(a, H), b] once, and H becomes b; with b
not later than H nothing is crossed and H stays. Across midnight the plan is selected again and the new day's part is
crossed against the new plan. With nothing seized each event counts as fired; a BELL starts its pattern and a CHIME claims
its zones, a covered part is deferred with the event's own instant, and a MARK counts alone; of two BELL events of one time
the one of the lower slot starts first, so that a bell line in both plays the pattern of the other. Then the pending bells
due not later than b leave the head of the list, each rung and counted as a line bell (02 plan events, the mark, crossing by
advance; 03 the pending bell list; that the advance is a part of the tick by itself is log 4, that the source moves with a
selection that selects the same plan is log 15, and an event with no enabled zone restarts a running spacing timer: log 16). -/
def Obligations.TickCrossesPlanEvents : Prop :=
  ∀ (s : State) (h a : Instant), s.tb.advanceDue = true → s.tb.state ≠ .unset → s.bs.mark = some h →
    s.tb.now.ms < 86400000 → a = { day := s.tb.now.day, ms := s.tb.now.ms } →
    ∃ t, exec (.tick .advance) s = .next t ∧ t.au = s.au ∧ t.ci = s.ci ∧ t.li = s.li ∧ t.pending = s.pending ∧
      ∀ (b : Instant) (crossed : Instant → Bool) (base : BellSequencer),
        b = { day := t.tb.now.day, ms := t.tb.now.ms } → t.tb.now ≠ s.tb.now →
        crossed = (fun x => b.later h && x.within (a.latest h) b) →
        base = { s.bs with mark := t.bs.mark, selection := t.bs.selection, source := t.bs.source } →
        t.bs.mark = (if b.later h then some b else some h) ∧
        (b.day = a.day → t.bs.selection = s.bs.selection ∧ t.bs.source = s.bs.source) ∧
        (b.day ≠ a.day → (t.bs.selection, t.bs.source) = s.bs.select b.day t.tb.now.weekday) ∧
        t.bs.planFiredLate = s.bs.planFiredLate ∧ t.bs.planSkipped = s.bs.planSkipped ∧
        (s.dc.seized = 0 →
          t.bs.planFired = satAdd s.bs.planFired
            (s.bs.countEvents s.bs.selection a.day crossed +
              if b.day = a.day then 0 else s.bs.countEvents t.bs.selection b.day crossed) ∧
          t.bs.planDeferred = s.bs.planDeferred ∧ t.bs.deferred = s.bs.deferred ∧ t.dc = s.dc ∧ t.mu = s.mu) ∧
        (∀ (n : Fin 8) (j : Fin 48) (e : PlanEvent), t.bs.selection = .plan n → s.bs.plans[n][j] = e →
          e.valid = true → crossed (e.instant b.day) = true → s.bs.countEvents t.bs.selection b.day crossed = 1 →
          (b.day ≠ a.day → s.bs.countEvents s.bs.selection a.day crossed = 0) →
          (∀ p ∈ s.bs.pendingBells.head?, p.due.later b = true) →
          (e.sound = none →
            t.bs = { base with planFired := satInc s.bs.planFired } ∧ t.bo = s.bo ∧ t.za = s.za ∧ t.dc = s.dc ∧
            t.mu = s.mu) ∧
          (∀ sound, e.sound = some sound →
            s.Rings t sound e.zones .plan (some (e.instant b.day))
              { base with planFired := satInc s.bs.planFired } { base with planDeferred := satInc s.bs.planDeferred } ∧
            t.mu = s.ringing sound e.zones .plan (some (e.instant b.day)) s.mu)) ∧
        (∀ (n : Fin 8) (i j : Fin 48) (e x : PlanEvent) (first second : Fin 16), i < j → t.bs.selection = .plan n →
          s.bs.plans[n][i] = e → s.bs.plans[n][j] = x → e.valid = true → x.valid = true →
          e.sound = some (.pattern first) → x.sound = some (.pattern second) →
          crossed (e.instant b.day) = true → crossed (x.instant b.day) = true →
          s.bs.countEvents t.bs.selection b.day crossed = 2 →
          (b.day ≠ a.day → s.bs.countEvents s.bs.selection a.day crossed = 0) →
          (∀ p ∈ s.bs.pendingBells.head?, p.due.later b = true) → s.dc.seized = 0 →
          t.bs = { base with planFired := satInc (satInc s.bs.planFired), spacing := s.bs.spacingHeard } ∧
          t.bo.patterns = s.bo.patterns ∧ t.dc = s.dc ∧ t.mu = s.mu ∧
          ∀ z : Zone,
            ((s.zone z).enabled = true → memSet z x.zones = true → s.StartsAt t z second .plan) ∧
            ((s.zone z).enabled = true → memSet z x.zones = false → memSet z e.zones = true →
              s.StartsAt t z first .plan) ∧
            ((s.zone z).enabled = false ∨ memSet z e.zones = false ∧ memSet z x.zones = false →
              s.KeepsZone t z)) ∧
        (∀ due rest, s.bs.pendingBells = due ++ rest → (∀ p ∈ due, p.due.later b = false) →
          (∀ p ∈ rest.head?, p.due.later b = true) →
          t.bs.pendingBells = rest ∧
          (s.dc.seized = 0 → t.bs.lineFired = satAdd s.bs.lineFired due.length ∧
            t.bs.lineDeferred = s.bs.lineDeferred) ∧
          (∀ p, due = [p] → s.bs.countEvents s.bs.selection a.day crossed = 0 →
            s.bs.countEvents t.bs.selection b.day crossed = 0 →
            s.Rings t (.pattern p.pattern) p.zones .line (some p.due)
              { base with pendingBells := rest, lineFired := satInc s.bs.lineFired }
              { base with pendingBells := rest, lineDeferred := satInc s.bs.lineDeferred } ∧
            t.mu = s.ringing (.pattern p.pattern) p.zones .line (some p.due) s.mu))

/-- R8: stage 1, compensation. c = floor((δ + 500) / 1000) is at most 66 ms and is added to the beacon's ms of day; at
86,400,000 or more one day is carried into the day number, modulo 65536, and the weekday, modulo 7. -/
def Obligations.BeaconCompensation : Prop :=
  ∀ (tb : TimeBase) (c : BeaconCell), c.ms.toNat < 86400000 → c.weekday.toNat ≤ 6 → tb.delayComp ≤ 65535 →
    (tb.delayComp + 500) / 1000 ≤ 66 ∧
    (86400000 ≤ c.ms.toNat + (tb.delayComp + 500) / 1000 →
      (tb.masterTime c).ms = c.ms.toNat + (tb.delayComp + 500) / 1000 - 86400000 ∧
      (tb.masterTime c).day = c.day + 1 ∧ (tb.masterTime c).weekday.val = (c.weekday.toNat + 1) % 7) ∧
    (c.ms.toNat + (tb.delayComp + 500) / 1000 < 86400000 →
      (tb.masterTime c).ms = c.ms.toNat + (tb.delayComp + 500) / 1000 ∧
      (tb.masterTime c).day = c.day ∧ (tb.masterTime c).weekday.val = c.weekday.toNat)

/-- A malformed cell only increases its malformed count, and a SESSION, BELL or DRILL cell whose mask does not hold this
station's group changes nothing, malformed or not; both are forwarded. A booking is malformed by its pattern, by a due ms of
86,400,000 or more, and, while time is set, by a due instant later than now and 24 h; an immediate bell by its pattern alone
(01 beacons, 03 commanded bells, 05 session cells, 08 drill cells and commands, 09). -/
def Obligations.MalformedCellsOnlyCount : Prop :=
  (∀ (s : State) (c : BeaconCell), s.li.sync = .up → (86400000 ≤ c.ms.toNat ∨ 6 < c.weekday.toNat) →
    exec (.beacon c) s = .next
      (State.forwards (beaconCell c) { s with tb := { s.tb with malformedCount := satInc s.tb.malformedCount } })) ∧
  (∀ (s : State) (code : BitVec 4) (c : SessionCell), s.takes c.groups →
    (7 < c.channel.toNat ∨ (code ≠ 1 ∧ code ≠ 2)) →
    exec (.sessionMalformed code c) s = .next
      (State.forwards (sessionCell code c) { s with au := { s.au with malformed := satInc s.au.malformed } })) ∧
  (∀ (s : State) (code : BitVec 4) (c : DrillCell), s.takes c.groups → (code = 0 ∨ 5 < code.toNat) →
    exec (.drillMalformed code c) s = .next
      (State.forwards (drillCell code c) { s with dc := { s.dc with malformed := satInc s.dc.malformed } })) ∧
  (∀ (s : State) (c : BellCell) (malformed : BellSequencer), s.takes c.groups →
    malformed = { s.bs with lineMalformed := satInc s.bs.lineMalformed } →
    (15 < c.pattern.toNat →
      exec (.bellImmediate c) s = .next (State.forwards (bellCell false true c) { s with bs := malformed })) ∧
    (15 < c.pattern.toNat ∨ 86400000 ≤ c.dueMs.toNat ∨
        s.tb.state ≠ .unset ∧
          Instant.later { day := c.dueDay, ms := c.dueMs.toNat } { day := s.tb.now.day + 1, ms := s.tb.now.ms } = true →
      exec (.bellBooking c) s = .next (State.forwards (bellCell false false c) { s with bs := malformed }))) ∧
  (∀ (s : State) (b : BellCell), s.li.sync = .up → memSet s.mu.group b.groups = false →
    (∀ immediate : Bool,
      exec (.bellCancel immediate b) s = .next (State.forwards (bellCell true immediate b) s)) ∧
    exec (.bellImmediate b) s = .next (State.forwards (bellCell false true b) s) ∧
    exec (.bellBooking b) s = .next (State.forwards (bellCell false false b) s)) ∧
  (∀ (s : State) (n : SessionCell), s.li.sync = .up → memSet s.mu.group n.groups = false →
    exec (.sessionOpen n) s = .next (State.forwards (sessionCell 1 n) s) ∧
    exec (.sessionClose n) s = .next (State.forwards (sessionCell 2 n) s) ∧
    (∀ code : BitVec 4, exec (.sessionMalformed code n) s = .next (State.forwards (sessionCell code n) s))) ∧
  (∀ (s : State) (d : DrillCell), s.li.sync = .up → memSet s.mu.group d.groups = false →
    exec (.drillStart d) s = .next (State.forwards (drillCell 1 d) s) ∧
    exec (.drillSilence d) s = .next (State.forwards (drillCell 2 d) s) ∧
    exec (.drillMuster d) s = .next (State.forwards (drillCell 3 d) s) ∧
    exec (.drillAllClear d) s = .next (State.forwards (drillCell 4 d) s) ∧
    exec (.drillAbort d) s = .next (State.forwards (drillCell 5 d) s) ∧
    (∀ code : BitVec 4, exec (.drillMalformed code d) s = .next (State.forwards (drillCell code d) s)))

/-- A valid beacon in UNSET is the first set: the record, the state, TIME_SET, H, the plan selection and the circuits'
decisions, and nothing else (01 beacons, 02 plan selection and the mark, 06 circuit states). -/
def Obligations.FirstBeaconSetsTime : Prop :=
  ∀ (s : State) (c : BeaconCell), s.li.sync = .up → s.tb.state = .unset → c.ms.toNat < 86400000 → c.weekday.toNat ≤ 6 →
    ∃ t, exec (.beacon c) s = .next t ∧
      t.tb = { s.tb with state := .locked, now := s.tb.masterTime c, slew := 0, lossTimer := 0,
                         validCount := satInc s.tb.validCount } ∧
      t.mu = s.mu.post 4 (be32 (BitVec.ofNat 32 (s.tb.masterTime c).ms)) ∧
      t.bs = { s.bs with
        mark := some { day := (s.tb.masterTime c).day, ms := (s.tb.masterTime c).ms },
        selection := (s.bs.select (s.tb.masterTime c).day (s.tb.masterTime c).weekday).1,
        source := (s.bs.select (s.tb.masterTime c).day (s.tb.masterTime c).weekday).2 } ∧
      (∀ k : CircuitId, t.circuit k = (s.circuit k).decide (t.target k)) ∧
      t.bo = s.bo ∧ t.za = s.za ∧ t.au = s.au ∧ t.dc = s.dc ∧ t.ci = s.ci ∧ t.pending = s.pending ∧
      t.li = { s.li with missing := 0, goodCells := satInc s.li.goodCells, out := beaconCell c }

/-- A valid beacon with the STEP flag, or with |e| above the step threshold, steps local time, and TIME_STEP is posted. A
step that is not forward leaves H, the pending bell list, the deferred queue and the counters. A forward step to b not later
than H crosses nothing. Else H becomes b, and with nothing seized: within one day the events crossed fire late within the
grace and are skipped beyond it; into a later day the rest of the old day is skipped, the plan is selected again, and the
new day's events within the grace fire late. Then the pending bells due by b ring late or are skipped. BELL_SKIPPED is
posted for a step that skipped plan events, with their number and the first of them (01 beacons, 02 crossing by step and
accounting, 03 the pending bell list; that the source moves with a selection that selects the same plan is log 15, that
TIME_STEP is posted before what the step's bells post is log 36, that BELL_SKIPPED is posted last is log 17, and an event
with no enabled zone restarts a running spacing timer: log 16). -/
def Obligations.BeaconStepsTime : Prop :=
  ∀ (s : State) (c : BeaconCell) (e : Int) (posted : ManagementUnit), s.li.sync = .up → s.tb.state ≠ .unset →
    c.ms.toNat < 86400000 → c.weekday.toNat ≤ 6 →
    e = ((s.tb.masterTime c).day - s.tb.now.day).toInt * 86400000 +
      (((s.tb.masterTime c).ms : Int) - (s.tb.now.ms : Int)) →
    (c.stepFlag = true ∨ (s.tb.stepThreshold : Int) < |e|) →
    posted = s.mu.post 5 (be32 (BitVec.ofInt 32 (max (-2147483647) (min 2147483647 e)))) →
    ∃ t, exec (.beacon c) s = .next t ∧
      t.tb = { s.tb with state := .locked, now := s.tb.masterTime c, slew := 0, lossTimer := 0,
                         validCount := satInc s.tb.validCount, keptStep := max (-2147483647) (min 2147483647 e),
                         stepCount := satInc s.tb.stepCount } ∧
      memSet 5 t.mu.flags = true ∧
      (∀ k : CircuitId, t.circuit k = (s.circuit k).decide (t.target k)) ∧ t.au = s.au ∧ t.ci = s.ci ∧
      t.pending = s.pending ∧
      t.li = { s.li with missing := 0, goodCells := satInc s.li.goodCells, out := beaconCell c } ∧
      (t.bs.selection, t.bs.source) =
        (if t.tb.now.day = s.tb.now.day ∧ t.tb.now.weekday = s.tb.now.weekday then (s.bs.selection, s.bs.source)
         else s.bs.select t.tb.now.day t.tb.now.weekday) ∧
      (e ≤ 0 →
        t.bs = { s.bs with selection := t.bs.selection, source := t.bs.source } ∧ t.bo = s.bo ∧ t.za = s.za ∧
        t.dc = s.dc ∧ t.mu = posted) ∧
      ∀ (a b h : Instant) (grace : Int) (skips fires : Instant → Bool) (old : Selection) (base : BellSequencer), 0 < e →
        a = { day := s.tb.now.day, ms := s.tb.now.ms } → b = { day := t.tb.now.day, ms := t.tb.now.ms } →
        s.bs.mark = some h → grace = (s.bs.lateGrace : Int) * 1000 →
        skips = (fun x => b.later h && stepSkips a b h grace x) →
        fires = (fun x => b.later h && stepFires a b h grace x) →
        old = (if a.day = b.day then t.bs.selection else s.bs.selection) →
        base = { s.bs with mark := t.bs.mark, selection := t.bs.selection, source := t.bs.source } →
        t.bs.mark = (if b.later h then some b else some h) ∧ t.bs.planFired = s.bs.planFired ∧
        (s.dc.seized = 0 →
          t.bs.planFiredLate = satAdd s.bs.planFiredLate (s.bs.countEvents t.bs.selection b.day fires) ∧
          t.bs.planSkipped = satAdd s.bs.planSkipped (s.bs.countEvents old a.day skips) ∧
          t.bs.planDeferred = s.bs.planDeferred ∧ t.bs.deferred = s.bs.deferred ∧ t.dc = s.dc ∧
          (s.bs.countEvents old a.day skips = 0 → t.mu = posted) ∧
          (∀ (n : Fin 8) (j : Fin 48), old = .plan n → (s.bs.plans[n][j]).valid = true →
            skips ((s.bs.plans[n][j]).instant a.day) = true →
            (∀ i : Fin 48, (s.bs.plans[n][i]).valid = true → skips ((s.bs.plans[n][i]).instant a.day) = true →
              (s.bs.plans[n][j]).time < (s.bs.plans[n][i]).time ∨
                (s.bs.plans[n][j]).time = (s.bs.plans[n][i]).time ∧ j ≤ i) →
            t.mu = posted.post 7
              (be16 (BitVec.ofNat 16 (s.bs.countEvents old a.day skips)) ++
                [BitVec.ofNat 8 n.val, BitVec.ofNat 8 j.val]))) ∧
        (∀ (n : Fin 8) (j : Fin 48) (x : PlanEvent), t.bs.selection = .plan n → s.bs.plans[n][j] = x →
          x.valid = true → fires (x.instant b.day) = true → s.bs.countEvents t.bs.selection b.day fires = 1 →
          s.bs.countEvents old a.day skips = 0 → (∀ p ∈ s.bs.pendingBells.head?, p.due.later b = true) →
          (x.sound = none →
            t.bs = { base with planFiredLate := satInc s.bs.planFiredLate } ∧ t.bo = s.bo ∧ t.za = s.za ∧
            t.dc = s.dc ∧ t.mu = posted) ∧
          (∀ sound, x.sound = some sound →
            s.Rings t sound x.zones .plan (some (x.instant b.day))
              { base with planFiredLate := satInc s.bs.planFiredLate }
              { base with planDeferred := satInc s.bs.planDeferred } ∧
            t.mu = s.ringing sound x.zones .plan (some (x.instant b.day)) posted)) ∧
        (∀ due rest, s.bs.pendingBells = due ++ rest → (∀ p ∈ due, p.due.later b = false) →
          (∀ p ∈ rest.head?, p.due.later b = true) →
          t.bs.pendingBells = rest ∧
          (s.dc.seized = 0 →
            t.bs.lineFiredLate = satAdd s.bs.lineFiredLate (due.filter fun p => b.since p.due ≤ grace).length ∧
            t.bs.lineSkipped = satAdd s.bs.lineSkipped (due.filter fun p => grace < b.since p.due).length ∧
            t.bs.lineDeferred = s.bs.lineDeferred) ∧
          (∀ p, due = [p] → b.since p.due ≤ grace → s.bs.countEvents t.bs.selection b.day fires = 0 →
            s.bs.countEvents old a.day skips = 0 →
            s.Rings t (.pattern p.pattern) p.zones .line (some p.due)
              { base with pendingBells := rest, lineFiredLate := satInc s.bs.lineFiredLate }
              { base with pendingBells := rest, lineDeferred := satInc s.bs.lineDeferred } ∧
            t.mu = s.ringing (.pattern p.pattern) p.zones .line (some p.due) posted))

/-- A valid beacon within the step threshold sets S to e and leaves the record; in LOCKED it changes nothing else (01
beacons). -/
def Obligations.BeaconSlewsTime : Prop :=
  ∀ (s : State) (c : BeaconCell) (e : Int), s.li.sync = .up → s.tb.state ≠ .unset →
    c.ms.toNat < 86400000 → c.weekday.toNat ≤ 6 →
    e = ((s.tb.masterTime c).day - s.tb.now.day).toInt * 86400000 +
      (((s.tb.masterTime c).ms : Int) - (s.tb.now.ms : Int)) →
    c.stepFlag = false → |e| ≤ (s.tb.stepThreshold : Int) →
    ∃ t, exec (.beacon c) s = .next t ∧
      t.tb = { s.tb with state := .locked, slew := e, lossTimer := 0, validCount := satInc s.tb.validCount } ∧
      (s.tb.state = .locked → t.cc = s.cc) ∧
      (s.tb.state = .holdover → ∀ k : CircuitId, t.circuit k = (s.circuit k).decide (t.target k)) ∧
      t.bs = s.bs ∧ t.bo = s.bo ∧ t.za = s.za ∧ t.au = s.au ∧ t.dc = s.dc ∧ t.ci = s.ci ∧ t.mu = s.mu ∧
      t.pending = s.pending ∧
      t.li = { s.li with missing := 0, goodCells := satInc s.li.goodCells, out := beaconCell c }

/-- In LOCKED, with the timer at the beacon-loss limit, the state becomes HOLDOVER, HOLDOVER is posted with M, and the
circuits decide; otherwise the event changes nothing (01 beacon loss and holdover; log 3 for an event that is not
due). -/
def Obligations.LossTimerEntersHoldover : Prop :=
  ∀ s : State,
    (s.tb.state = .locked → s.tb.lossLimit * 1000 ≤ s.tb.lossTimer →
      ∃ t, exec .beaconLossExpiry s = .next t ∧ t.tb = { s.tb with state := .holdover } ∧
        t.mu = s.mu.post 6 (be32 (BitVec.ofNat 32 s.tb.now.ms)) ∧
        (∀ k : CircuitId, t.circuit k = (s.circuit k).decide (t.target k)) ∧
        t.bs = s.bs ∧ t.bo = s.bo ∧ t.za = s.za ∧ t.au = s.au ∧ t.dc = s.dc ∧ t.ci = s.ci ∧ t.li = s.li ∧
        t.pending = s.pending) ∧
    (s.tb.state ≠ .locked ∨ s.tb.lossTimer < s.tb.lossLimit * 1000 → exec .beaconLossExpiry s = .next s)

/-- Plan selection: the lowest-indexed valid exception slot that names the day decides, and else the day map entry of the
weekday (02, plan selection). -/
def Obligations.PlanSelectionFollowsLists : Prop :=
  ∀ (bs : BellSequencer) (day : BitVec 16) (w : Fin 7),
    (∀ j : Fin 32, (bs.exceptions[j]).valid = true → (bs.exceptions[j]).day = day →
      (∀ i : Fin 32, i < j → (bs.exceptions[i]).valid = true → (bs.exceptions[i]).day ≠ day) →
      bs.select day w =
        (match (bs.exceptions[j]).plan with
         | some n => Selection.plan n
         | none => Selection.noBells, Source.slot j)) ∧
    ((∀ i : Fin 32, (bs.exceptions[i]).valid = true → (bs.exceptions[i]).day ≠ day) →
      bs.select day w =
        (match bs.dayMap[w] with
         | some n => Selection.plan n
         | none => Selection.noBells, Source.dayMap))

/-! ## Bells -/

/-- R52, the cancel: a cell with the cancel flag removes the pending entry that has its id and counts, and with no such
entry it changes nothing (03, commanded bells). -/
def Obligations.BellCancelRemovesBooking : Prop :=
  ∀ (immediate : Bool) (s : State) (c : BellCell), s.takes c.groups →
    ((∃ p ∈ s.bs.pendingBells, p.id = c.id) →
      exec (.bellCancel immediate c) s = .next
        (State.forwards (bellCell true immediate c)
          { s with bs := { s.bs with pendingBells := s.bs.pendingBells.filter (fun p => p.id ≠ c.id),
                                     lineCancelled := satInc s.bs.lineCancelled } })) ∧
    ((∀ p ∈ s.bs.pendingBells, p.id ≠ c.id) →
      exec (.bellCancel immediate c) s = .next (State.forwards (bellCell true immediate c) s))

/-- An immediate cell with an empty covered part starts its firing set with origin LINE and counts as fired; a booking
with its id leaves the list, and a running spacing timer starts again (03, commanded bells, replay; that it does so for a
bell whose firing set is empty too is log 16). -/
def Obligations.ImmediateBellRings : Prop :=
  ∀ (s : State) (c : BellCell), s.takes c.groups → c.pattern.toNat ≤ 15 →
    (c.zones &&& s.enabledZones) &&& s.dc.seized = 0 →
    ∃ t, exec (.bellImmediate c) s = .next t ∧
      t.bs = { s.bs with pendingBells := s.bs.pendingBells.filter (fun p => p.id ≠ c.id),
                         lineFired := satInc s.bs.lineFired, spacing := s.bs.spacingHeard } ∧
      s.StartsOn t (Fin.ofNat 16 c.pattern.toNat) c.zones .line ∧ s.BellFrame t ∧ t.dc = s.dc ∧ t.mu = s.mu ∧
      t.li = { s.li with missing := 0, goodCells := satInc s.li.goodCells, out := bellCell false true c }

/-- An immediate cell with a covered part: that part joins the deferred queue with the due instant of now, as the overrun
marker at the sixteenth position, or is lost while the marker stands; the rest of the firing set starts, the bell counts as
deferred, and the OPEN record or the panel tally counts (03 commanded bells and deferral, 08 drill records). -/
def Obligations.CoveredBellIsDeferred : Prop :=
  ∀ (s : State) (c : BellCell) (covered : ZoneSet), s.takes c.groups → c.pattern.toNat ≤ 15 →
    covered = (c.zones &&& s.enabledZones) &&& s.dc.seized → covered ≠ 0 →
    ∃ t, exec (.bellImmediate c) s = .next t ∧
      t.bs = { s.bs with
        pendingBells := s.bs.pendingBells.filter (fun p => p.id ≠ c.id),
        deferred := if s.bs.marker then s.bs.deferred
          else s.bs.deferred ++
            [{ zones := covered, sound := .pattern (Fin.ofNat 16 c.pattern.toNat), origin := .line,
               due := if s.tb.state = .unset then none else some { day := s.tb.now.day, ms := s.tb.now.ms } }],
        marker := s.bs.marker || decide (15 ≤ s.bs.deferred.length),
        deferredLost := if s.bs.marker then satInc s.bs.deferredLost else s.bs.deferredLost,
        lineDeferred := satInc s.bs.lineDeferred,
        spacing := if (c.zones &&& s.enabledZones) &&& ~~~s.dc.seized = 0 then s.bs.spacing else s.bs.spacingHeard } ∧
      t.mu = (if s.bs.marker = false ∧ 15 ≤ s.bs.deferred.length then s.mu.post 9 ([1, c.pattern] ++ be16 covered)
        else s.mu) ∧
      (s.dc.state = .panel →
        t.dc = if s.bs.marker then { s.dc with panelLost := satInc s.dc.panelLost }
          else { s.dc with panelDeferred := satInc s.dc.panelDeferred }) ∧
      (s.dc.state ≠ .panel → s.dc.openRecord = none → t.dc = s.dc) ∧
      (∀ r rs, s.dc.state ≠ .panel → s.dc.openRecord = some 0 → s.dc.ring = r :: rs →
        t.dc = { s.dc with
          ring := (if s.bs.marker then { r with lost := satInc r.lost } else { r with deferred := satInc r.deferred }) ::
            rs }) ∧
      s.StartsOn t (Fin.ofNat 16 c.pattern.toNat) (c.zones &&& ~~~s.dc.seized) .line ∧ s.BellFrame t ∧
      t.li = { s.li with missing := 0, goodCells := satInc s.li.goodCells, out := bellCell false true c }

/-- A booking later than now, and not later than 24 h on, is inserted after every entry not later than it and before the
first that is later, once an entry with its id has been removed; at 16 entries it is dropped and BELL_LIST_FULL is posted
(03, commanded bells, the pending bell list). -/
def Obligations.BookingIsListedInDueOrder : Prop :=
  ∀ (s : State) (c : BellCell) (kept : List PendingBell) (due : Instant), s.takes c.groups → c.pattern.toNat ≤ 15 →
    c.dueMs.toNat < 86400000 → s.tb.state ≠ .unset → due = { day := c.dueDay, ms := c.dueMs.toNat } →
    due.later { day := s.tb.now.day, ms := s.tb.now.ms } = true →
    due.later { day := s.tb.now.day + 1, ms := s.tb.now.ms } = false →
    kept = s.bs.pendingBells.filter (fun p => p.id ≠ c.id) →
    (kept.length < 16 →
      ∃ before after, kept = before ++ after ∧ (∀ p ∈ before, p.due.later due = false) ∧
        (∀ p ∈ after.head?, p.due.later due = true) ∧
        exec (.bellBooking c) s = .next
          (State.forwards (bellCell false false c)
            { s with bs := { s.bs with
              pendingBells := before ++ ⟨c.id, c.zones, Fin.ofNat 16 c.pattern.toNat, due⟩ :: after } })) ∧
    (16 ≤ kept.length →
      exec (.bellBooking c) s = .next
        (State.forwards (bellCell false false c)
          { s with bs := { s.bs with pendingBells := kept, lineListFull := satInc s.bs.lineListFull },
                   mu := s.mu.post 8 ([c.id, c.pattern] ++ be16 c.zones) }))

/-- A booking at or before now rings at once within late grace, counted as fired late, a covered part of it deferred with
its own due instant and the bell counted as deferred; beyond the grace it is dropped and counted as skipped; while UNSET it
is skipped; due more than 24 h on it is malformed and an entry with its id stays (03, commanded bells, deferral; a bell
whose firing set is empty restarts a running spacing timer: log 16). -/
def Obligations.LateBookingRingsOrIsSkipped : Prop :=
  ∀ (s : State) (c : BellCell) (now due : Instant), s.takes c.groups → c.pattern.toNat ≤ 15 →
    c.dueMs.toNat < 86400000 → due = { day := c.dueDay, ms := c.dueMs.toNat } →
    now = { day := s.tb.now.day, ms := s.tb.now.ms } →
    (s.tb.state ≠ .unset → due.later { day := s.tb.now.day + 1, ms := s.tb.now.ms } = true →
      exec (.bellBooking c) s = .next
        (State.forwards (bellCell false false c)
          { s with bs := { s.bs with lineMalformed := satInc s.bs.lineMalformed } })) ∧
    (s.tb.state = .unset ∨
        due.later { day := s.tb.now.day + 1, ms := s.tb.now.ms } = false ∧ due.later now = false ∧
          (s.bs.lateGrace : Int) * 1000 < now.since due →
      exec (.bellBooking c) s = .next
        (State.forwards (bellCell false false c)
          { s with bs := { s.bs with pendingBells := s.bs.pendingBells.filter (fun p => p.id ≠ c.id),
                                     lineSkipped := satInc s.bs.lineSkipped } })) ∧
    (s.tb.state ≠ .unset → due.later { day := s.tb.now.day + 1, ms := s.tb.now.ms } = false → due.later now = false →
      now.since due ≤ (s.bs.lateGrace : Int) * 1000 →
      ∃ t, exec (.bellBooking c) s = .next t ∧
        s.Rings t (.pattern (Fin.ofNat 16 c.pattern.toNat)) c.zones .line (some due)
          { s.bs with pendingBells := s.bs.pendingBells.filter (fun p => p.id ≠ c.id),
                      lineFiredLate := satInc s.bs.lineFiredLate }
          { s.bs with pendingBells := s.bs.pendingBells.filter (fun p => p.id ≠ c.id),
                      lineDeferred := satInc s.bs.lineDeferred } ∧
        t.mu = s.ringing (.pattern (Fin.ofNat 16 c.pattern.toNat)) c.zones .line (some due) s.mu ∧ s.BellFrame t ∧
        t.li = { s.li with missing := 0, goodCells := satInc s.li.goodCells, out := bellCell false false c })

/-- The timing of a record, a player's first phase, and what follows each phase whose time has run out: the next stroke, the
off-time, or DONE with the line given up; a player whose time has not run out is left (03, bell patterns; log 3 for an
event that is not due). -/
def Obligations.PatternPhasesFollowRecord : Prop :=
  (∀ p : Pattern, p.period = (4 + p.a) * 2 ^ p.b * 25 ∧ p.onTime = p.period / 2 ∧ p.onTime + p.offTime = p.period ∧
    p.duration = p.lead + p.strokes * p.period ∧ (p.Ok → 100 ≤ p.period ∧ p.period ≤ 2200 ∧ p.duration ≤ 143600)) ∧
  (∀ (p : Pattern) (o : Origin),
    (0 < p.lead → Player.begin p o =
      { record := p, origin := o, phase := .lead, strokesLeft := p.strokes, timeLeft := p.lead }) ∧
    (p.lead = 0 → 0 < p.strokes → Player.begin p o =
      { record := p, origin := o, phase := .strokeOn, strokesLeft := p.strokes - 1, timeLeft := p.onTime }) ∧
    (p.lead = 0 → p.strokes = 0 → (Player.begin p o).phase = .done)) ∧
  (∀ (s : State) (z : Zone) (p : Player), s.bo.players[z] = p →
    (p.phase = .done ∨ p.timeLeft ≠ 0 → exec (.patternPhaseEnd z) s = .next s) ∧
    (p.phase = .lead ∨ p.phase = .strokeOff → p.timeLeft = 0 → 0 < p.strokesLeft →
      exec (.patternPhaseEnd z) s = .next
        (s.withPlayer z
          { p with phase := .strokeOn, strokesLeft := p.strokesLeft - 1, timeLeft := p.record.onTime })) ∧
    (p.phase = .strokeOn → p.timeLeft = 0 →
      exec (.patternPhaseEnd z) s = .next
        (s.withPlayer z { p with phase := .strokeOff, timeLeft := p.record.offTime })) ∧
    (p.phase = .lead ∨ p.phase = .strokeOff → p.timeLeft = 0 → p.strokesLeft = 0 →
      ∃ t q, exec (.patternPhaseEnd z) s = .next t ∧ q.phase = PlayerPhase.done ∧
        t = (s.withPlayer z q).withZone z
          { s.zone z with bellOwner := if (s.zone z).bellOwner = .drill then .drill else .none }))

/-- The spacing timer's expiry under ALL takes the head: it is discarded beyond the age limit, and the next head is taken at
once; otherwise it is replayed on its enabled zones, as its pattern or as a scheduled chime, with the timer started again;
the marker goes with the last position, and an empty queue ends replay (03, replay; log 3 for an event that is not due). -/
def Obligations.ReplayTakesNextEntry : Prop :=
  ∀ s : State,
    (s.bs.replay = .idle ∨ s.bs.spacing ≠ 0 → exec .replaySpacingExpiry s = .next s) ∧
    (s.bs.replay = .running → s.bs.spacing = 0 →
      (s.bs.deferred = [] →
        exec .replaySpacingExpiry s = .next { s with bs := { s.bs with replay := .idle, spacing := 0 } }) ∧
      (∀ (e : Deferred) (rest : List Deferred) (bs : BellSequencer), s.bs.deferred = e :: rest →
        bs = { s.bs with
          deferred := rest, marker := s.bs.marker && !rest.isEmpty,
          deferredOverruns := if s.bs.marker && rest.isEmpty then satInc s.bs.deferredOverruns
            else s.bs.deferredOverruns } →
        (s.bs.replayAge * 1000 < entryAge s.tb.now? e →
          exec .replaySpacingExpiry s =
            exec .replaySpacingExpiry { s with bs := { bs with replayDiscarded := satInc s.bs.replayDiscarded } }) ∧
        (entryAge s.tb.now? e ≤ s.bs.replayAge * 1000 →
          ∃ t, exec .replaySpacingExpiry s = .next t ∧
            t.bs = { bs with replayed := satInc s.bs.replayed, spacing := s.bs.replaySpacing * 1000 } ∧
            s.SoundsOn t e.sound e.zones e.origin ∧ s.BellFrame t ∧ t.dc = s.dc ∧ t.mu = s.mu ∧ t.li = s.li)))

/-- R61: under policy NONE the beginning of replay empties the queue without sounding, each entry counted as discarded, and a
marker counted and cleared. Under LATEST a zone rings an entry exactly when the zone is enabled, the entry is within the
age limit and its zone set holds the zone, no other entry that holds the zone is later, and none as late is newer, an absent
due instant being later than any (that is said for due instants within half the day-number circle, where later than orders
them); the entries that won zones sound there and count as replayed, the others count as discarded, and the queue is
emptied. Under ALL replay runs and takes heads until one within the age limit is replayed, or the queue is empty. The age of
an entry is now − due and at least 0, and 0 where there is no due instant or no time (03, replay). -/
def Obligations.ReplayBeginsByPolicy : Prop :=
  (∀ (now : Option Instant) (e : Deferred),
    (now = none ∨ e.due = none → entryAge now e = 0) ∧
    (∀ n d : Instant, now = some n → e.due = some d →
      (entryAge now e : Int) = max 0 ((n.day - d.day).toInt * 86400000 + ((n.ms : Int) - (d.ms : Int))))) ∧
  (∀ s : State, s.bs.deferred = [] → s.replayBegin = { s with bs := { s.bs with replay := .idle, spacing := 0 } }) ∧
  (∀ s : State, s.bs.replayPolicy = .none → s.bs.deferred ≠ [] →
    s.replayBegin = { s with bs := { s.bs with
      deferred := [], marker := false, replay := .idle, spacing := 0,
      deferredOverruns := if s.bs.marker then satInc s.bs.deferredOverruns else s.bs.deferredOverruns,
      replayDiscarded := satAdd s.bs.replayDiscarded s.bs.deferred.length } }) ∧
  (∀ (s : State) (z : Zone) (k : Nat) (e : Deferred) (base : BitVec 16),
    (∀ f ∈ s.bs.deferred, ∀ d, f.due = some d → (d.day - base).toNat < 32768) → s.bs.deferred[k]? = some e →
    (memSet z (s.latestZones k) = true ↔
      (s.zone z).enabled = true ∧ memSet z e.zones = true ∧ entryAge s.tb.now? e ≤ s.bs.replayAge * 1000 ∧
        ∀ (j : Nat) (f : Deferred), s.bs.deferred[j]? = some f → memSet z f.zones = true →
          (match e.due, f.due with
           | none, none => j ≤ k
           | none, some _ => True
           | some _, none => False
           | some d, some x => if j ≤ k then x.later d = false else d.later x = true))) ∧
  (∀ s t : State, s.bs.replayPolicy = .latest → s.bs.deferred ≠ [] → t = s.replayBegin →
    t = { s with bs := t.bs, bo := t.bo, za := t.za } ∧ t.bo.patterns = s.bo.patterns ∧
    t.bs = { s.bs with
      deferred := [], marker := false, replay := .idle, spacing := 0,
      deferredOverruns := if s.bs.marker then satInc s.bs.deferredOverruns else s.bs.deferredOverruns,
      replayed := satAdd s.bs.replayed
        ((List.range s.bs.deferred.length).filter fun k => s.latestZones k ≠ 0).length,
      replayDiscarded := satAdd s.bs.replayDiscarded
        ((List.range s.bs.deferred.length).filter fun k => s.latestZones k = 0).length } ∧
    ∀ z : Zone,
      (∀ (k : Nat) (e : Deferred), s.bs.deferred[k]? = some e → memSet z (s.latestZones k) = true →
        (∀ p, e.sound = .pattern p → s.StartsAt t z p e.origin) ∧ (e.sound = .chime → s.ChimesAt t z)) ∧
      ((∀ k < s.bs.deferred.length, memSet z (s.latestZones k) = false) → s.KeepsZone t z)) ∧
  (∀ (s t : State) (e : Deferred) (rest : List Deferred) (bs : BellSequencer), s.bs.replayPolicy = .all →
    s.bs.deferred = e :: rest → t = s.replayBegin →
    bs = { s.bs with
      deferred := rest, marker := s.bs.marker && !rest.isEmpty,
      deferredOverruns := if s.bs.marker && rest.isEmpty then satInc s.bs.deferredOverruns
        else s.bs.deferredOverruns } →
    (s.bs.replayAge * 1000 < entryAge s.tb.now? e →
      t = State.replayBegin { s with bs := { bs with replayDiscarded := satInc s.bs.replayDiscarded } }) ∧
    (entryAge s.tb.now? e ≤ s.bs.replayAge * 1000 →
      t = { s with bs := t.bs, bo := t.bo, za := t.za } ∧
      t.bs = { bs with replay := .running, replayed := satInc s.bs.replayed,
                       spacing := s.bs.replaySpacing * 1000 } ∧
      s.SoundsOn t e.sound e.zones e.origin))

/-! ## Zones -/

/-- One step of a running ramp moves the gain one code toward the target, and the ramp is STEADY on reaching it; a
DOWN_FOR_HANDOVER step above code 1 moves the gain down one (04, gain; log 3 for a step that is not due). -/
def Obligations.RampStepMovesOneCode : Prop :=
  ∀ (s : State) (z : Zone) (r : ZoneRec), s.zone z = r →
    (r.ramp = .steady ∨ r.rampTimer ≠ 0 → exec (.rampStep z) s = .next s) ∧
    (∀ g : Nat, r.ramp = .up → r.rampTimer = 0 →
      (r.gain < r.target ∧ g = r.gain + 1 ∨ r.target < r.gain ∧ r.gain = g + 1) →
      exec (.rampStep z) s = .next
        (s.withZone z { r with gain := g, ramp := if g = r.target then .steady else .up,
                               rampTimer := if g = r.target then 0 else 2 })) ∧
    (r.ramp = .down → r.rampTimer = 0 → 1 < r.gain →
      exec (.rampStep z) s = .next (s.withZone z { r with gain := r.gain - 1, rampTimer := 2 }))

/-- The step that takes a gain to 0, from 1 or, where the handover or release began there, at 0. With a slot pending it
becomes owner from gain 0 with its own class, also over a scheduled chime and at the end of a release; a pending scheduled
chime becomes owner at class 3 and is heard at the phase of its own claim, 1.0 s before its end, also where it follows an
older chime. A release with nothing pending ends with the best waiting slot as owner, of the highest priority and at a tie of
the earliest open order, or with NONE. A slot that held the zone is told it no longer holds it, and one that was releasing it
that its release is complete; that frees it where its drain is done and the zone was its last, and the slots opened after it
move down. Nothing else changes. It is said for open orders that differ, a claimant that is not the owner and
a pending chime with an end, as the slot law has them, which every step keeps (04, handover, release
and scheduled chimes; 05, draining). -/
def Obligations.HandoverCompletesAtZero : Prop :=
  ∀ (s : State) (z : Zone) (r : ZoneRec), s.zone z = r → r.ramp = .down → r.rampTimer = 0 → r.gain ≤ 1 →
    (∀ a b : SlotId, a ≠ b → (s.slot a).openOrder = (s.slot b).openOrder → (s.slot a).openOrder = 0) →
    (r.releasing = true ∨ r.claimant ≠ none) → (∀ n : SlotId, r.claimant = some (.slot n) → r.owner ≠ .slot n) →
    (r.claimant = some .chime → r.chimeEnd ≠ none) →
    ∃ t, exec (.rampStep z) s = .next t ∧ t = { s with za := t.za, au := { s.au with slots := t.au.slots } } ∧
      (∀ y : Zone, y ≠ z → t.zone y = s.zone y) ∧
      (∀ n : SlotId, r.claimant = some (.slot n) →
        t.zone z = r.grantedTo n (s.slot n).priority (s.slot n).targetGain) ∧
      (∀ stop : Tick, r.claimant = some .chime → r.chimeEnd = some stop →
        t.zone z = ZoneRec.fromZero
          { r with owner := .chime, cls := .rank 3, releasing := false, claimant := none,
                   chimeClaimed := some (stop - 1000), drillSource := none }
          (min r.defaultGain r.maxGain)) ∧
      (r.claimant = none →
        (∀ n : SlotId, s.BestWaiting z n → t.zone z = r.grantedTo n (s.slot n).priority (s.slot n).targetGain) ∧
        ((∀ n : SlotId, ¬ s.WaitsOn z n) →
          t.zone z = { r with
            owner := .none, cls := .none, releasing := false, chimeEnd := none, chimeClaimed := none,
            drillSource := none, gain := 0, target := 0, ramp := .steady, rampTimer := 0 })) ∧
      ∀ k : SlotId, t.slot k =
        if (t.zone z).owner = .slot k then
          { s.slotTold z k with granted := insertZone z (s.slotTold z k).granted }
        else s.slotTold z k

/-- A scheduled chime's end reached: a zone it owns is released, a zone it is pending on loses the claim, and every other
zone is left (04, scheduled chimes; taking every zone whose end is reached is log 24; that a pending chime that withdraws
leaves no chime end also where the owner is an older chime being released is log 35). -/
def Obligations.ScheduledChimeEndReleases : Prop :=
  ∀ s : State, ∃ t, exec .schedChimeEnd s = .next t ∧
    t.tb = s.tb ∧ t.bs = s.bs ∧ t.bo = s.bo ∧ t.cc = s.cc ∧ t.dc = s.dc ∧ t.ci = s.ci ∧ t.li = s.li ∧ t.mu = s.mu ∧
    t.pending = s.pending ∧ ((∀ z : Zone, (s.zone z).owner = .chime → 0 < (s.zone z).gain) → t.au = s.au) ∧
    ∀ (z : Zone) (r : ZoneRec) (stop : Tick), s.zone z = r →
      (r.chimeEnd = none → t.zone z = r) ∧
      (r.chimeEnd = some stop → 2147483648 ≤ (s.tb.tick - stop).toNat → t.zone z = r) ∧
      ((r.owner ≠ .chime ∨ r.releasing = true) → r.claimant ≠ some .chime → t.zone z = r) ∧
      (r.owner = .chime → r.releasing = false → r.claimant ≠ some .chime → r.chimeEnd = some stop →
        (s.tb.tick - stop).toNat < 2147483648 → 0 < r.gain →
        t.zone z = { r with releasing := true, target := 0, ramp := .down,
                            rampTimer := if r.ramp = .steady then 2 else r.rampTimer }) ∧
      (r.claimant = some .chime → r.chimeEnd = some stop → (s.tb.tick - stop).toNat < 2147483648 →
        (t.zone z).claimant ≠ some .chime ∧ (t.zone z).chimeEnd = none ∧ (t.zone z).owner = r.owner ∧
        (t.zone z).gain = r.gain)

/-- The last part of a ZONE entry is refused FIELD for a gain above 80, and else commits the record, as CLEAR_ENTRY commits
its power-on values. A zone that goes disabled is cleared at once, its pattern cut, and it leaves every slot's sets and the
seized set; a zone that goes enabled while the drill sounds and is named for it is seized alone; on a zone that stays as it
was the target gain is worked out again from the new gains, and a ramp takes it (04 configuration writes, gain; 08 zones
enabled and disabled; 10 tables; a ramp that finds its target at its gain is STEADY: log 19). -/
def Obligations.ZoneRecordTakesEffect : Prop :=
  ∀ (s u t : State) (z : Zone) (g : ZoneConfig),
    u = { s with mu := { s.mu with cursor := { table := .zone, index := z.val + 1, part := 0 }, staged := [] } } →
    t = u.commitZone z g →
    (∀ (c : MgmtCell) (part0 : Part), s.hears c → 2 ≤ c.length.toNat → c.length.toNat ≤ 30 →
      s.mu.cursor = { table := .zone, index := z.val, part := 1 } → s.mu.staged = [part0] →
      g = { enabled := part0[0] != 0, inDrill := part0[1] != 0, maxGain := (c.payload[0]).toNat,
            defaultGain := (c.payload[1]).toNat } →
      exec (.writePart 0 c) s = .next
        (if 80 < g.maxGain ∨ 80 < g.defaultGain then State.consumes (s.reply 0 5 c .field []) u
         else State.consumes (s.reply 0 5 c .ok [11, BitVec.ofNat 8 z.val, 1]) t)) ∧
    (∀ (c : MgmtCell) (part : Nat), s.hears c → c.length.toNat ≤ 30 →
      s.mu.cursor = { table := .zone, index := z.val, part } →
      g = { enabled := true, inDrill := true, maxGain := 80, defaultGain := 60 } →
      exec (.clearEntry 0 c) s = .next (State.consumes (s.reply 0 7 c .ok [11, BitVec.ofNat 8 z.val]) t)) ∧
    (t.tb = s.tb ∧ t.bs = s.bs ∧ t.cc = s.cc ∧ t.ci = s.ci ∧ t.li = s.li ∧ t.mu = u.mu ∧ t.pending = s.pending) ∧
    (∀ y : Zone, y ≠ z → t.zone y = s.zone y ∧ t.bo.players[y] = s.bo.players[y]) ∧
    ((s.zone z).enabled = true → g.enabled = false →
      t.zone z = { ZoneRec.initial with enabled := false, inDrill := g.inDrill, maxGain := g.maxGain,
                                        defaultGain := g.defaultGain } ∧
      (t.bo.players[z]).phase = .done ∧ memSet z t.dc.seized = false ∧
      ∀ n : SlotId, memSet z (t.slot n).requested = false ∧ memSet z (t.slot n).granted = false) ∧
    ((s.zone z).enabled = false → g.enabled = true → s.dc.state = .sounding → memSet z s.dc.named = true →
      memSet z t.dc.seized = true ∧ (t.zone z).owner = .drill ∧ (t.zone z).cls = .rank 7 ∧
      (t.zone z).drillSource = some .evac ∧ (t.zone z).gain = 0 ∧ (t.zone z).bellOwner = .drill ∧
      (t.zone z).target = min (if s.dc.drillGain = 0 then g.defaultGain else s.dc.drillGain) g.maxGain) ∧
    ((s.zone z).enabled = false → g.enabled = true → s.dc.state = .idle →
      t.zone z = { s.zone z with enabled := true, inDrill := g.inDrill, maxGain := g.maxGain,
                                 defaultGain := g.defaultGain } ∧ t.dc = s.dc) ∧
    ((s.zone z).enabled = g.enabled →
      t.au = s.au ∧ t.bo = s.bo ∧ t.dc = s.dc ∧
      ∀ r : ZoneRec,
        r = { s.zone z with inDrill := g.inDrill, maxGain := g.maxGain, defaultGain := g.defaultGain } →
        (r.releasing = true ∨ r.owner = .none → t.zone z = r.aimedAt 0) ∧
        (∀ n : SlotId, r.releasing = false → r.owner = .slot n →
          t.zone z = r.aimedAt (min (s.slot n).targetGain r.maxGain)) ∧
        (r.releasing = false → r.owner = .chime → t.zone z = r.aimedAt (min r.defaultGain r.maxGain)) ∧
        (r.releasing = false → r.owner = .drill →
          (r.drillSource = some .evac →
            t.zone z = r.aimedAt (min (if s.dc.drillGain = 0 then r.defaultGain else s.dc.drillGain) r.maxGain)) ∧
          (r.drillSource = some .allClear → t.zone z = r.aimedAt (min s.au.chimeGain r.maxGain)) ∧
          (r.drillSource = some .silent → t.zone z = r.aimedAt 0)))

/-! ## Announcements -/

/-- An OPEN on a channel no slot is bound to fills the lowest-numbered FREE slot; on each enabled zone of its set the slot
claims: it becomes owner of a free zone at once, becomes the pending claimant of one held at a lower class, and waits on one
held at its own class or higher. With no FREE slot the cell is refused with CHANNELS_FULL. An OPEN on the channel of a bound
slot re-opens it, and one in DRAINING returns to LIVE: the slot keeps its channel, order, buffer and chime, its timer
restarts, and the new set, gain and priority are taken; an owned zone that leaves the set is released, one it is pending on
or waits on is given up, an owned zone that stays takes the new class and target, a release of a zone of the new set is
cancelled, and the new zones are claimed. The re-open is said for the one slot in CHIME or LIVE, and for zones yielded by
none but the drill (04 claims and release, 05 opening a session; a ramp that finds its target at its gain is STEADY:
log 19; a pending chime that a slot replaces leaves no chime end also under an older chime being released: log 35; a claim that
meets the drill's release ramp becomes pending: log 41). -/
def Obligations.OpenTakesLowestFreeSlot : Prop :=
  ∀ (s : State) (c : SessionCell) (zones : ZoneSet) (p gain : Nat), s.takes c.groups → c.channel.toNat ≤ 7 →
    zones = c.zones &&& s.enabledZones → p = max 1 (min 6 c.priority.toNat) → gain = min 80 c.gain.toNat →
    (∀ z : Zone, (s.zone z).cls = .yielding → (s.zone z).owner = .drill) →
    ((∀ m : SlotId, (s.slot m).channel ≠ some c.channel) →
      ((∀ m : SlotId, (s.slot m).state ≠ .free) →
        exec (.sessionOpen c) s = .next
          (State.forwards (sessionCell 1 c)
            { s with au := { s.au with channelsFull := satInc s.au.channelsFull },
                     mu := s.mu.post 10 ([c.channel, BitVec.ofNat 8 p] ++ be16 c.zones) })) ∧
      (∀ n : SlotId, (s.slot n).state = .free → (∀ m : SlotId, m < n → (s.slot m).state ≠ .free) →
        ∃ t, exec (.sessionOpen c) s = .next t ∧
          t.slot n = { Slot.free with
            state := if c.chime then .chime else .live, channel := some c.channel, priority := p, requested := zones,
            granted := (t.slot n).granted, targetGain := gain, chimeFlag := c.chime,
            chimeStart := if c.chime then some s.tb.tick else none,
            openOrder := ((List.finRange 4).filter fun m : SlotId => (s.slot m).channel.isSome).length + 1 } ∧
          (∀ m : SlotId, m ≠ n → t.slot m = s.slot m) ∧
          t.au = { s.au with slots := t.au.slots, opened := satInc s.au.opened } ∧
          (t.tb = s.tb ∧ t.bs = s.bs ∧ t.bo = s.bo ∧ t.cc = s.cc ∧ t.dc = s.dc ∧ t.ci = s.ci ∧ t.mu = s.mu ∧
            t.pending = s.pending) ∧
          ∀ (z : Zone) (r : ZoneRec), s.zone z = r →
            (memSet z zones = false → t.zone z = r) ∧
            (memSet z zones = true → r.owner ≠ .slot n → r.claimant ≠ some (.slot n) →
              s.ClaimsAt t z n p gain ∧
              (memSet z (t.slot n).granted = true ↔
                r.ramp ≠ .down ∧ (r.owner = .none ∨ r.owner = .drill ∧ r.cls = .yielding ∧ p = 6))))) ∧
    (∀ (n : SlotId) (r : Slot), s.slot n = r → r.channel = some c.channel → r.state ≠ .free →
      (∀ m : SlotId, m < n → (s.slot m).channel ≠ some c.channel) → s.FeedLaw →
      (∀ m : SlotId, m ≠ n → (s.slot m).state = .free ∨ (s.slot m).state = .draining) →
      ∃ t, exec (.sessionOpen c) s = .next t ∧
        t.slot n = { r with
          state := if r.state = .draining then .live else r.state, requested := (t.slot n).requested,
          granted := (t.slot n).granted, targetGain := gain, priority := p,
          audioTimer := if r.state = .chime then r.audioTimer else 0 } ∧
        (∀ m : SlotId, m ≠ n → t.slot m = s.slot m) ∧
        t.au = { s.au with slots := t.au.slots, reopened := satInc s.au.reopened } ∧
        (t.tb = s.tb ∧ t.bs = s.bs ∧ t.bo = s.bo ∧ t.cc = s.cc ∧ t.dc = s.dc ∧ t.ci = s.ci ∧ t.mu = s.mu ∧
          t.pending = s.pending) ∧
        ∀ (z : Zone) (x : ZoneRec) (target : Nat), s.zone z = x → target = min gain x.maxGain →
          (memSet z zones = true → memSet z (t.slot n).requested = true) ∧
          (memSet z zones = false → memSet z r.requested = false → x.owner ≠ .slot n → x.claimant ≠ some (.slot n) →
            t.zone z = x) ∧
          (memSet z zones = false → memSet z r.requested = true →
            (x.owner = .slot n → x.releasing = false → 0 < x.gain →
              t.zone z = { x.released with cls := .rank p } ∧ memSet z (t.slot n).requested = true) ∧
            (x.owner = .slot n → x.releasing = false → x.gain = 0 → x.claimant = none →
              t.zone z = { x.cleared with bellOwner := x.bellOwner } ∧ memSet z (t.slot n).requested = false) ∧
            (x.owner ≠ .slot n → x.claimant ≠ some (.slot n) →
              t.zone z = x ∧ memSet z (t.slot n).requested = false) ∧
            (x.owner ≠ .slot n → x.claimant = some (.slot n) →
              (t.zone z).claimant = none ∧ (t.zone z).owner = x.owner ∧ (t.zone z).gain = x.gain ∧
              memSet z (t.slot n).requested = false)) ∧
          (memSet z zones = true → x.owner = .slot n →
            (x.releasing = false → t.zone z = { x.aimedAt target with cls := .rank p }) ∧
            (x.releasing = true → x.ramp = .down → x.claimant = none →
              t.zone z = { ZoneRec.aimedAt { x with releasing := false, ramp := .up } target with cls := .rank p }) ∧
            (x.releasing = true → x.ramp = .down → x.claimant ≠ none →
              t.zone z = { x with releasing := false, target, cls := .rank p })) ∧
          (memSet z zones = true → x.owner ≠ .slot n → x.claimant = some (.slot n) →
            (r.priority ≤ p → t.zone z = x) ∧
            (∀ k : Nat, p < r.priority → x.ramp = .down → x.cls = .rank k →
              (x.releasing = true ∨ k < p → t.zone z = x) ∧
              (x.releasing = false → p ≤ k →
                (t.zone z).claimant = none ∧ (t.zone z).owner = x.owner ∧ (t.zone z).gain = x.gain))) ∧
          (memSet z zones = true → x.owner ≠ .slot n → x.claimant ≠ some (.slot n) →
            (memSet z r.requested = true ∧ r.state ≠ .draining ∧ p ≤ r.priority → t.zone z = x) ∧
            (memSet z r.requested = false ∨ r.state = .draining ∨ r.priority < p → s.ClaimsAt t z n p gain)))

/-- A CLOSE on a slot in CHIME or LIVE enters DRAINING: the requested set becomes the granted set, a buffered cell plays
on or begins to play, and with an empty buffer every granted zone is released and a slot that holds none is FREE, the later
slots moving down. On a channel no slot is bound to, or a slot in DRAINING, it changes nothing. It is said for a slot that
is pending on no zone, and leaves out what its withdrawal there does (05, closing and draining; the requested set of a draining
slot is log 21, its last-audio timer standing at 0 log 37). -/
def Obligations.CloseStartsDraining : Prop :=
  ∀ (s : State) (c : SessionCell), s.takes c.groups → c.channel.toNat ≤ 7 →
    ((∀ m : SlotId, (s.slot m).channel ≠ some c.channel) →
      exec (.sessionClose c) s = .next (State.forwards (sessionCell 2 c) s)) ∧
    (∀ (n : SlotId) (r : Slot), s.slot n = r → r.channel = some c.channel →
      (∀ m : SlotId, m < n → (s.slot m).channel ≠ some c.channel) →
      (r.state = .draining → exec (.sessionClose c) s = .next (State.forwards (sessionCell 2 c) s)) ∧
      (r.state = .chime ∨ r.state = .live → (∀ z : Zone, (s.zone z).claimant ≠ some (.slot n)) →
        (∀ x rest, r.buffer = x :: rest →
          exec (.sessionClose c) s = .next
            (State.forwards (sessionCell 2 c)
              (({ s with au := { s.au with closes := satInc s.au.closes } } : State).withSlot n
                { r with state := .draining, chimeStart := none, audioTimer := 0, requested := r.granted,
                         buffer := if r.playout then r.buffer else rest,
                         playing := if r.playout then r.playing else some x, playout := true,
                         takeTimer := if r.playout then r.takeTimer else 2 }))) ∧
        (r.buffer = [] → r.granted = 0 →
          ∃ t, exec (.sessionClose c) s = .next t ∧ t.slot n = Slot.free ∧ t.za = s.za ∧
            ∀ m : SlotId, m ≠ n →
              t.slot m = { s.slot m with
                openOrder := if r.openOrder ≠ 0 ∧ r.openOrder < (s.slot m).openOrder then (s.slot m).openOrder - 1
                  else (s.slot m).openOrder }) ∧
        (r.buffer = [] → r.granted ≠ 0 →
          (∀ z : Zone, memSet z r.granted = true →
            (s.zone z).owner = .slot n ∧ (s.zone z).releasing = false ∧ 0 < (s.zone z).gain) →
          ∃ t, exec (.sessionClose c) s = .next t ∧
            t.slot n = { r with state := .draining, chimeStart := none, audioTimer := 0, requested := r.granted,
                                playout := false, playing := none, takeTimer := 0 } ∧
            (∀ m : SlotId, m ≠ n → t.slot m = s.slot m) ∧
            ∀ z : Zone,
              (memSet z r.granted = false → t.zone z = s.zone z) ∧
              (memSet z r.granted = true →
                t.zone z = { s.zone z with releasing := true, target := 0, ramp := .down,
                                           rampTimer := if (s.zone z).ramp = .steady then 2
                                             else (s.zone z).rampTimer }))))

/-- A good AUDIO cell: unbound, discarded in CHIME and DRAINING, stale at a gap of 128 or more, and else taken in LIVE. With
its sequence expected, or none expected, it is buffered. At a gap of 1 or 2 as many copies of the last cell go before it as
there is room for beside it, counted as concealed, and at a gap of 3 or more none; the missing cells with no copy are
counted as lost and reported. With no room it is dropped as an overrun, reported after them. The slot then expects the next
sequence, and with playout clear the fourth cell placed begins it (05, audio cells and playout; which of the two faults of
one cell is posted first is log 25). -/
def Obligations.AudioFollowsSlotState : Prop :=
  ∀ (s : State) (c : AudioCell) (ch : Byte), s.li.sync = .up → ch = c.channel.setWidth 8 →
    ((∀ m : SlotId, (s.slot m).channel ≠ some ch) →
      exec (.audio c) s = .next
        (State.forwards (audioCell c) { s with au := { s.au with unbound := satInc s.au.unbound } })) ∧
    (∀ (n : SlotId) (r : Slot), s.slot n = r → r.channel = some ch →
      (∀ m : SlotId, m < n → (s.slot m).channel ≠ some ch) →
      (r.state = .chime ∨ r.state = .draining →
        exec (.audio c) s = .next
          (State.forwards (audioCell c) { s with au := { s.au with discarded := satInc s.au.discarded } })) ∧
      (∀ e, r.state = .live → r.expected = some e → 128 ≤ (c.sequence - e).toNat →
        exec (.audio c) s = .next
          (State.forwards (audioCell c)
            (({ s with au := { s.au with stale := satInc s.au.stale } } : State).withSlot n
              { r with audioTimer := 0 }))) ∧
      (∀ (gap free copies missing : Nat) (copy : Samples) (placed : List Samples) (heard : Slot) (mu : ManagementUnit),
        r.state = .live → gap = (r.expected.elim 0 fun e => (c.sequence - e).toNat) → gap < 128 →
        free = 16 - r.buffer.length → (free = 0 → r.playout = true) →
        (gap = 1 ∨ gap = 2 → r.lastCell = some copy) →
        copies = (if gap = 1 ∨ gap = 2 then min gap (free - 1) else 0) → missing = gap - copies →
        placed = r.buffer ++ List.replicate copies copy ++ (if free = 0 then [] else [c.samples]) →
        heard = { r with audioTimer := 0, buffer := placed, expected := some (c.sequence + 1),
                         lastCell := if free = 0 then r.lastCell else some c.samples } →
        mu = (if missing = 0 then s.mu
              else s.mu.post 11 [BitVec.ofNat 8 n.val, ch, 2, BitVec.ofNat 8 missing]) →
        exec (.audio c) s = .next
          (State.forwards (audioCell c)
            (({ s with
                au := { s.au with
                  accepted := if free = 0 then s.au.accepted else satInc s.au.accepted,
                  overrun := if free = 0 then satInc s.au.overrun else s.au.overrun,
                  concealed := satAdd s.au.concealed copies, lost := satAdd s.au.lost missing },
                mu := if free = 0 then mu.post 11 [BitVec.ofNat 8 n.val, ch, 0, 1] else mu } : State).withSlot n
              (match placed with
               | x :: rest =>
                 if r.playout = false ∧ 4 ≤ placed.length then
                   { heard with buffer := rest, playing := some x, playout := true, takeTimer := 2 }
                 else heard
               | [] => heard)))))

/-- The session chime's end enters LIVE with an empty buffer; a take plays the oldest cell and starts the next 2 ms, stops
playout with an underrun reported in LIVE, and ends a drain: every granted zone is released, at once where its gain is 0 and
no slot wants it, and a slot left with no zone is FREE, the later slots moving down (05, the session chime, playout, draining;
04, release; log 3 for an event that is not due). -/
def Obligations.SessionChimeAndPlayout : Prop :=
  ∀ (s : State) (n : SlotId) (r : Slot), s.slot n = r →
    (r.state ≠ .chime → exec (.sessionChimeEnd n) s = .next s) ∧
    (∀ start, r.state = .chime → r.chimeStart = some start →
      ((s.tb.tick - start).toNat < 1000 → exec (.sessionChimeEnd n) s = .next s) ∧
      (1000 ≤ (s.tb.tick - start).toNat →
        exec (.sessionChimeEnd n) s = .next
          (s.withSlot n { r with state := .live, chimeStart := none, buffer := [], playout := false,
                                 audioTimer := 0 }))) ∧
    (r.playout = false ∨ r.takeTimer ≠ 0 → exec (.playoutTake n) s = .next s) ∧
    (r.playout = true → r.takeTimer = 0 →
      (∀ x rest, r.buffer = x :: rest →
        exec (.playoutTake n) s = .next
          (s.withSlot n { r with buffer := rest, playing := some x, takeTimer := 2 })) ∧
      (r.buffer = [] → r.state = .live →
        exec (.playoutTake n) s = .next
          (({ s with au := { s.au with underrun := satInc s.au.underrun },
                     mu := s.mu.post 11 [BitVec.ofNat 8 n.val, r.channel.getD 255, 1, 1] } : State).withSlot n
            { r with playout := false, playing := none, takeTimer := 0 })) ∧
      (∀ done : ZoneSet, r.buffer = [] → r.state = .draining →
        (∀ z : Zone, memSet z r.granted = true → (s.zone z).owner = .slot n) →
        (∀ z : Zone, memSet z done = true ↔
          memSet z r.granted = true ∧ (s.zone z).releasing = false ∧ (s.zone z).gain = 0) →
        (∀ z : Zone, memSet z done = true → (s.zone z).claimant = none ∧ ∀ m : SlotId, ¬ s.WantsZone z m) →
        ∃ t, exec (.playoutTake n) s = .next t ∧ t = { s with au := { s.au with slots := t.au.slots }, za := t.za } ∧
          (r.granted &&& ~~~done ≠ 0 →
            t.slot n = { r with playout := false, playing := none, takeTimer := 0,
                                requested := r.requested &&& ~~~done, granted := r.granted &&& ~~~done } ∧
            ∀ m : SlotId, m ≠ n → t.slot m = s.slot m) ∧
          (r.granted &&& ~~~done = 0 →
            t.slot n = Slot.free ∧
            ∀ m : SlotId, m ≠ n →
              t.slot m = { s.slot m with
                openOrder := if r.openOrder ≠ 0 ∧ r.openOrder < (s.slot m).openOrder then (s.slot m).openOrder - 1
                  else (s.slot m).openOrder }) ∧
          ∀ z : Zone,
            t.zone z =
              if memSet z done then { (s.zone z).cleared with bellOwner := (s.zone z).bellOwner }
              else if memSet z r.granted && !(s.zone z).releasing then (s.zone z).released
              else s.zone z))

/-- A slot in LIVE whose last-audio timer has reached the session timeout is closed as a CLOSE closes it, counted and
reported with its slot, channel, priority and expected sequence: with an empty buffer its zones are released, and a slot that
holds none is FREE, the later slots moving down; with cells and playout clear their playing begins; with playout running it
goes on. It is said for a slot that is pending on no zone (05, session timeout, closing, draining; 04, release; log 3 for an
event that is not due, log 21 for the requested set of a draining slot, log 37 for the stopped timer). -/
def Obligations.SilentSessionTimesOut : Prop :=
  ∀ (s : State) (n : SlotId) (r : Slot), s.slot n = r →
    (r.state ≠ .live ∨ r.audioTimer < s.au.sessionTimeout * 1000 → exec (.sessionTimeout n) s = .next s) ∧
    (∀ (u : State) (drained : Slot), r.state = .live → s.au.sessionTimeout * 1000 ≤ r.audioTimer →
      (∀ z : Zone, (s.zone z).claimant ≠ some (.slot n)) →
      u = { s with
        au := { s.au with closes := satInc s.au.closes, timedOut := satInc s.au.timedOut },
        mu := s.mu.post 12
          [BitVec.ofNat 8 n.val ||| (if r.expected = none then 0x80 else 0), r.channel.getD 255,
            BitVec.ofNat 8 r.priority, r.expected.getD 255] } →
      drained = { r with state := .draining, chimeStart := none, audioTimer := 0, requested := r.granted } →
      (r.buffer ≠ [] → r.playout = true → exec (.sessionTimeout n) s = .next (u.withSlot n drained)) ∧
      (∀ x rest, r.buffer = x :: rest → r.playout = false →
        exec (.sessionTimeout n) s = .next
          (u.withSlot n { drained with buffer := rest, playing := some x, playout := true, takeTimer := 2 })) ∧
      (r.buffer = [] → r.granted = 0 →
        ∃ t, exec (.sessionTimeout n) s = .next t ∧ t = { u with au := { u.au with slots := t.au.slots } } ∧
          t.slot n = Slot.free ∧
          ∀ m : SlotId, m ≠ n →
            t.slot m = { s.slot m with
              openOrder := if r.openOrder ≠ 0 ∧ r.openOrder < (s.slot m).openOrder then (s.slot m).openOrder - 1
                else (s.slot m).openOrder }) ∧
      (r.buffer = [] → r.granted ≠ 0 →
        (∀ z : Zone, memSet z r.granted = true →
          (s.zone z).owner = .slot n ∧ (s.zone z).releasing = false ∧ 0 < (s.zone z).gain) →
        ∃ t, exec (.sessionTimeout n) s = .next t ∧ t = { u with au := { u.au with slots := t.au.slots }, za := t.za } ∧
          t.slot n = { drained with playout := false, playing := none, takeTimer := 0 } ∧
          (∀ m : SlotId, m ≠ n → t.slot m = s.slot m) ∧
          ∀ z : Zone, t.zone z = if memSet z r.granted then (s.zone z).released else s.zone z))

/-! ## Clock circuits -/

/-- R113: the decision of an impulse circuit, from the distance d between its dial position modulo P and its target:
WAIT_TIME with no target, as in UNSET, IN_STEP at d = 0, HOLD when P − d is at most the hold span, and else ADVANCE. With
no impulse in flight it is the circuit's state after it decides, the hold span being the hold window in minute mode and twice
it in half-minute mode, where a position is half a minute (06, hold span). -/
def Obligations.ImpulseDecisionTable : Prop :=
  (∀ positions span dial t d : Nat, 0 < positions → t < positions → d < positions →
    (dial % positions + d) % positions = t →
    decisionOf positions span dial none = .waitTime ∧
    (d = 0 → decisionOf positions span dial (some t) = .inStep) ∧
    (d ≠ 0 → positions - d ≤ span → decisionOf positions span dial (some t) = .hold) ∧
    (d ≠ 0 → span < positions - d → decisionOf positions span dial (some t) = .advance)) ∧
  (∀ (s : State) (k : CircuitId), s.tb.state = .unset → s.target k = none) ∧
  (∀ (c : Circuit) (positions span : Nat) (target : Option Nat),
    (c.config.mode = .minute ∧ positions = 720 ∧ span = c.config.hold ∨
      c.config.mode = .half ∧ positions = 1440 ∧ span = 2 * c.config.hold) → c.inFlight = none →
    (c.decide target).state = decisionOf positions span c.retained.dial target)

/-- The end of an impulse clears the in-flight flag and starts a gap of its width, and a reset that waited is then
decided; the end of a gap decides again, and ADVANCE starts the next impulse with the opposite polarity, one position on
(06, targets and impulses; log 3 for an event that is not due). -/
def Obligations.ImpulseAndGapEnds : Prop :=
  ∀ (s : State) (k : CircuitId) (c : Circuit), s.circuit k = c →
    (targetAt .minute s.tb.now = s.tb.now.ms / 60000 % 720 ∧ targetAt .half s.tb.now = s.tb.now.ms / 30000 % 1440) ∧
    (c.inFlight = none ∨ c.impulseLeft ≠ 0 → exec (.impulseEnd k) s = .next s) ∧
    (c.inFlight ≠ none → c.impulseLeft = 0 → c.resetPending = false →
      exec (.impulseEnd k) s = .next (s.withCircuit k { c with inFlight := none, gap := some c.widthInForce })) ∧
    (c.gap ≠ some 0 → exec (.gapEnd k) s = .next s) ∧
    (∀ (positions : Nat) (st : CircuitState),
      (c.config.mode = .minute ∧ positions = 720 ∨ c.config.mode = .half ∧ positions = 1440) →
      st = decisionOf positions c.config.holdSpan c.retained.dial
        (if s.tb.state = .unset then none else some (targetAt c.config.mode s.tb.now)) →
      (c.inFlight ≠ none → c.impulseLeft = 0 → c.resetPending = true →
        exec (.impulseEnd k) s = .next
          (s.withCircuit k { c with inFlight := none, gap := some c.widthInForce, resetPending := false, state := st })) ∧
      (c.gap = some 0 → c.inFlight = none → st ≠ .advance →
        exec (.gapEnd k) s = .next (s.withCircuit k { c with gap := none, state := st })) ∧
      (c.gap = some 0 → c.inFlight = none → st = .advance →
        exec (.gapEnd k) s = .next
          (s.withCircuit k { c with
            gap := none, state := .advance,
            retained := { dial := (c.retained.dial + 1) % positions, polarity := c.retained.polarity.opposite },
            inFlight := some c.retained.polarity.opposite, impulseLeft := c.config.width,
            widthInForce := c.config.width, impulses := satInc c.impulses })))

/-- A frame moment of a display circuit composes one frame and sets the next moment 500 ms on. Region A fills the positions
below the split in force from its left end with the time of day in the circuit's format, HHMM24, HHMM12 with its blank tens
digit and afternoon mark, or HHMMSS, with the holdover point for each colon in HOLDOVER and dashes while UNSET. Region B
fills the others from its right end with two blanks, the seconds, the minutes to the next event of the linked zones, rounded
up, or that event's label, and dashes where there is none; under the drill override, which brings the drill split, with the
alarm mark and the minutes of the drill, or dashes in PANEL. The blink flag stands while the override shows in SOUNDING or
PANEL (02 lookahead, 07 frames; the 8 ms of sending are log 27, and log 3 holds for an event that is not due). -/
def Obligations.FrameMomentSendsFrame : Prop :=
  ∀ (s : State) (k : CircuitId) (c : Circuit), s.circuit k = c →
    (c.config.mode ≠ .display ∨ c.frameTimer ≠ 0 → exec (.frameMoment k) s = .next s) ∧
    (c.config.mode = .display → c.frameTimer = 0 →
      ∃ f : Frame, s.FrameOk c.config f ∧
        exec (.frameMoment k) s = .next (s.withCircuit k { c with frame := some f, sendLeft := 8, frameTimer := 500 }))

/-- SET_DIAL is answered RANGE, BUSY, FIELD or OK in that order, and on OK the entry is rewritten and the circuit decides
at once (06, setting the dial; that the reply shows the rewritten entry is log 34). -/
def Obligations.SetDialFollowsTable : Prop :=
  ∀ (s : State) (c : MgmtCell) (position : Nat), s.hears c → 4 ≤ c.length.toNat → c.length.toNat ≤ 30 →
    position = (c.payload[1] ++ c.payload[2] : BitVec 16).toNat →
    (3 < (c.payload[0]).toNat →
      exec (.setDial 5 c) s = .next (State.consumes (s.reply 5 10 c .range []) s)) ∧
    (∀ (k : CircuitId) (r : Circuit) (polarity : Polarity), (c.payload[0]).toNat = k.val → s.circuit k = r →
      (r.inFlight ≠ none → exec (.setDial 5 c) s = .next (State.consumes (s.reply 5 10 c .busy []) s)) ∧
      (r.inFlight = none →
        2 < (c.payload[3]).toNat ∨ r.config.mode = .minute ∧ 720 ≤ position ∨ 1440 ≤ position →
        exec (.setDial 5 c) s = .next (State.consumes (s.reply 5 10 c .field []) s)) ∧
      (r.inFlight = none →
        (c.payload[3] = 0 ∧ polarity = .pos ∨ c.payload[3] = 1 ∧ polarity = .neg ∨
          c.payload[3] = 2 ∧ polarity = r.retained.polarity) →
        (position < 720 ∨ r.config.mode ≠ .minute ∧ position < 1440) →
        exec (.setDial 5 c) s = .next
          (State.consumes
            (s.reply 5 10 c .ok
              [c.payload[0], c.payload[1], c.payload[2], if polarity = .neg then 1 else 0])
            (s.withCircuit k ({ r with retained := { dial := position, polarity } }.decide (s.target k))))))

/-! ## Drills -/

/-- A START taken in IDLE or CLEARING opens a record and seizes the named zones that are enabled: each is owned by DRILL at
class 7 from gain 0 with source EVAC, its bell line is the drill's and its pattern is cut. In CLEARING the zones of the old
seized set that the new one lacks are released, and the bell sequencer is told nothing; every other zone is left. In
SOUNDING and SILENCED it is ignored and counted, and in PANEL it is dropped and counted as in panel (04 drill seizure, 08
commands, sounding). -/
def Obligations.DrillStartSeizesZones : Prop :=
  ∀ (s : State) (c : DrillCell) (named seized : ZoneSet), s.takes c.groups →
    named = (if c.zonesGiven then c.zones else s.drillZones) → seized = named &&& s.enabledZones →
    (s.dc.state = .idle ∧ s.dc.seized = 0 ∨ s.dc.state = .clearing →
      ∃ t, exec (.drillStart c) s = .next t ∧ t.dc = s.drillStarted .line c.number named seized ∧
        t.bs = (if s.dc.state = .idle then { s.bs with replay := .idle, spacing := 0 } else s.bs) ∧
        t.mu = s.mu.post 13 ([if s.dc.state = .idle then 0x10 else 0x13, 0] ++ be16 c.number) ∧
        t.tb = s.tb ∧ t.cc = s.cc ∧ t.ci = s.ci ∧ t.pending = s.pending ∧
        t.li = { s.li with missing := 0, goodCells := satInc s.li.goodCells, out := drillCell 1 c } ∧
        s.Evacuates t seized) ∧
    (s.dc.state = .sounding ∨ s.dc.state = .silenced →
      exec (.drillStart c) s = .next
        (State.forwards (drillCell 1 c) { s with dc := { s.dc with ignored := satInc s.dc.ignored } })) ∧
    (s.dc.state = .panel →
      exec (.drillStart c) s = .next
        (State.forwards (drillCell 1 c) { s with dc := { s.dc with inPanel := satInc s.dc.inPanel } }))

/-- SOUNDING becomes SILENCED by a SILENCE or at the sound limit: the OPEN record keeps the elapsed time and whether the
limit caused it, and every seized zone drops to gain 0 in yielding 6 with its line held off; a zone that slots of priority 6
wait on is theirs at once, the slot of the earliest open order owning it from gain 0 at class 6. Before the limit the event
changes nothing. A SILENCE in IDLE, SILENCED and CLEARING is ignored and counted, and in PANEL it is counted as in panel
(08 commands, silence; 04 classes that fall, drill seizure; log 3). -/
def Obligations.DrillSilencedByCommandOrLimit : Prop :=
  ∀ s : State,
    (∀ e : Nat, e = s.dc.elapsedAt s.tb.tick →
      (s.dc.state ≠ .sounding ∨ e < s.dc.soundLimit * 1000 → exec .soundLimit s = .next s) ∧
      (∀ (r : DrillRecord) (rs : List DrillRecord) (i : Instr) (limit : Bool) (cause : Byte), s.dc.state = .sounding →
        s.dc.openRecord = some 0 → s.dc.ring = r :: rs →
        (i = .soundLimit ∧ limit = true ∧ cause = 2 ∧ s.dc.soundLimit * 1000 ≤ e ∨
          (∃ c, s.takes c.groups ∧ i = .drillSilence c) ∧ limit = false ∧ cause = 0) →
        ∃ t, exec i s = .next t ∧
          t.dc = { s.dc with state := .silenced, ring := { r with silence := some e, limit } :: rs } ∧
          t.mu = s.mu.post 13 ([0x21, cause] ++ be16 r.number) ∧
          t.tb = s.tb ∧ t.bs = s.bs ∧ t.cc = s.cc ∧ t.ci = s.ci ∧ t.pending = s.pending ∧ s.Silences t)) ∧
    (∀ c : DrillCell, s.takes c.groups →
      (s.dc.state = .idle ∨ s.dc.state = .silenced ∨ s.dc.state = .clearing →
        exec (.drillSilence c) s = .next
          (State.forwards (drillCell 2 c) { s with dc := { s.dc with ignored := satInc s.dc.ignored } })) ∧
      (s.dc.state = .panel →
        exec (.drillSilence c) s = .next
          (State.forwards (drillCell 2 c) { s with dc := { s.dc with inPanel := satInc s.dc.inPanel } })))

/-- R144: a MUSTER in SOUNDING or SILENCED, from the line or from an input, marks the OPEN record and changes nothing
else; from the line it is ignored in IDLE and CLEARING, and in PANEL it is counted as in panel. -/
def Obligations.MusterMarksOpenRecord : Prop :=
  (∀ (s : State) (c : DrillCell), s.takes c.groups →
    (∀ r rs, s.dc.state = .sounding ∨ s.dc.state = .silenced → s.dc.openRecord = some 0 → s.dc.ring = r :: rs →
      exec (.drillMuster c) s = .next
        (State.forwards (drillCell 3 c)
          { s with dc := { s.dc with
            ring := { r with musters := satInc r.musters,
                             muster := if r.muster = none then some (s.dc.elapsedAt s.tb.tick) else r.muster } :: rs } })) ∧
    (s.dc.state = .idle ∨ s.dc.state = .clearing →
      exec (.drillMuster c) s = .next
        (State.forwards (drillCell 3 c) { s with dc := { s.dc with ignored := satInc s.dc.ignored } })) ∧
    (s.dc.state = .panel →
      exec (.drillMuster c) s = .next
        (State.forwards (drillCell 3 c) { s with dc := { s.dc with inPanel := satInc s.dc.inPanel } }))) ∧
  (∀ (s u : State) (n : InputId) (c : Contact) (r : DrillRecord) (rs : List DrillRecord), s.input n = c →
    u = s.withInput n { c with level := c.pin, timer := 0, changed := true } →
    20 ≤ c.timer → c.function = .muster → c.pin = c.activeHigh →
    s.dc.state = .sounding ∨ s.dc.state = .silenced → s.dc.openRecord = some 0 → s.dc.ring = r :: rs →
    exec (.debouncedChange n) s = .next
      { u with
        mu := s.mu.post 15 [BitVec.ofNat 8 n.val, if c.pin then 1 else 0, 3, u.ci.changeBits],
        dc := { s.dc with
          ring := { r with musters := satInc r.musters,
                           muster := if r.muster = none then some (s.dc.elapsedAt s.tb.tick) else r.muster } :: rs } })

/-- An ALL_CLEAR in SOUNDING or SILENCED closes the OPEN record as CLEARED and enters CLEARING: every seized zone is owned
by DRILL at class 7 from gain 0 toward the chime gain, and its bell line is given up. In IDLE and CLEARING it is ignored and
counted, and in PANEL it is counted as in panel (08 commands, the all-clear; 04 drill seizure). -/
def Obligations.AllClearClosesRecord : Prop :=
  ∀ (s : State) (c : DrillCell), s.takes c.groups →
    (∀ (r : DrillRecord) (rs : List DrillRecord), s.dc.state = .sounding ∨ s.dc.state = .silenced →
      s.dc.openRecord = some 0 → s.dc.ring = r :: rs →
      ∃ t, exec (.drillAllClear c) s = .next t ∧
        t.dc = { s.dc with
          state := .clearing, chimeStart := some s.tb.tick, openRecord := none,
          ring := { r with outcome := .cleared, endElapsed := s.dc.elapsedAt s.tb.tick } :: rs } ∧
        t.mu = s.mu.post 13 ([if s.dc.state = .sounding then 0x31 else 0x32, 0] ++ be16 r.number) ∧
        t.tb = s.tb ∧ t.bs = s.bs ∧ t.cc = s.cc ∧ t.ci = s.ci ∧ t.pending = s.pending ∧ s.Clears t) ∧
    (s.dc.state = .idle ∨ s.dc.state = .clearing →
      exec (.drillAllClear c) s = .next
        (State.forwards (drillCell 4 c) { s with dc := { s.dc with ignored := satInc s.dc.ignored } })) ∧
    (s.dc.state = .panel →
      exec (.drillAllClear c) s = .next
        (State.forwards (drillCell 4 c) { s with dc := { s.dc with inPanel := satInc s.dc.inPanel } }))

/-- An ABORT in SOUNDING, SILENCED or CLEARING, and the end of the all-clear chime, bring IDLE, report it and hand the
building back, and then replay begins; an ABORT closes an OPEN record as ABORTED and leaves a closed one. In IDLE an ABORT
is ignored and counted, and in PANEL it is counted as in panel (08, commands, the all-clear and the hand-back; that the
report of a change out of CLEARING, where no record is open, carries the newest record's number is log 18, and log 3 holds
for an event that is not due). -/
def Obligations.DrillEndsHandBack : Prop :=
  (∀ (s : State) (c : DrillCell), s.takes c.groups →
    (s.dc.state = .idle →
      exec (.drillAbort c) s = .next
        (State.forwards (drillCell 5 c) { s with dc := { s.dc with ignored := satInc s.dc.ignored } })) ∧
    (s.dc.state = .panel →
      exec (.drillAbort c) s = .next
        (State.forwards (drillCell 5 c) { s with dc := { s.dc with inPanel := satInc s.dc.inPanel } }))) ∧
  ∀ (s : State) (r : DrillRecord) (rs : List DrillRecord), s.dc.ring = r :: rs →
    (∀ c : DrillCell, s.takes c.groups → s.dc.state = .sounding ∨ s.dc.state = .silenced → s.dc.openRecord = some 0 →
      ∃ u, exec (.drillAbort c) s = .next u.replayBegin ∧
        u.dc = s.dc.resting ({ r with outcome := .aborted, endElapsed := s.dc.elapsedAt s.tb.tick } :: rs) ∧
        u.mu = s.mu.post 13 ([if s.dc.state = .sounding then 0x01 else 0x02, 0] ++ be16 r.number) ∧ u.ci = s.ci ∧
        u.li = { s.li with missing := 0, goodCells := satInc s.li.goodCells, out := drillCell 5 c } ∧
        s.HandsBack u) ∧
    (∀ c : DrillCell, s.takes c.groups → s.dc.state = .clearing → s.dc.openRecord = none →
      ∃ u, exec (.drillAbort c) s = .next u.replayBegin ∧ u.dc = s.dc.resting s.dc.ring ∧
        u.mu = s.mu.post 13 ([0x03, 0] ++ be16 r.number) ∧ u.ci = s.ci ∧
        u.li = { s.li with missing := 0, goodCells := satInc s.li.goodCells, out := drillCell 5 c } ∧
        s.HandsBack u) ∧
    (s.dc.state ≠ .clearing → exec .allClearChimeEnd s = .next s) ∧
    (∀ start, s.dc.state = .clearing → s.dc.chimeStart = some start → s.dc.openRecord = none →
      ((s.tb.tick - start).toNat < 3000 → exec .allClearChimeEnd s = .next s) ∧
      (3000 ≤ (s.tb.tick - start).toNat →
        ∃ u, exec .allClearChimeEnd s = .next u.replayBegin ∧ u.dc = s.dc.resting s.dc.ring ∧
          u.mu = s.mu.post 13 ([0x03, 3] ++ be16 r.number) ∧ u.ci = s.ci ∧ u.li = s.li ∧ s.HandsBack u))

/-- The evacuation signal is on for three strokes of 500 ms and 500 ms off, and then off to 4000 ms; in SOUNDING the event
switches the signal to what the phase gives, and elsewhere, where it is not due, it changes nothing (08, the evacuation
pattern; the signal kept as switched is log 28, an event that is not due log 3). -/
def Obligations.EvacuationSignalFollowsPhase : Prop :=
  (∀ phase : Nat, phase < 4000 →
    (evacOn phase = true ↔
      phase ≤ 499 ∨ 1000 ≤ phase ∧ phase ≤ 1499 ∨ 2000 ≤ phase ∧ phase ≤ 2499)) ∧
  (∀ s : State,
    (s.dc.state ≠ .sounding → exec .evacSignalPhase s = .next s) ∧
    (∀ start, s.dc.state = .sounding → s.dc.evacStart = some start →
      exec .evacSignalPhase s = .next
        { s with dc := { s.dc with evacSignal := evacOn ((s.tb.tick - start).toNat % 4000) } }))

/-! ## Contact inputs -/

/-- A debounced change takes the sampled level, latches the change bit and posts INPUT_CHANGE with the eight change bits; a
GENERAL input, and an input going inactive, does no more. Going active: a DRILL_START without local start is refused, and
with it begins a drill of number 0 and source INPUT in IDLE and CLEARING; a DRILL_SILENCE silences a sounding drill, an
ALL_CLEAR clears one; in a state that ignores the command it counts as ignored, and in PANEL as in panel; a BELL_RING rings
its pattern with origin INPUT, a covered part of it deferred. Before 20 ms the event changes nothing (08, contact inputs;
03, bells from contact inputs; log 3; a bell whose firing set is empty restarts a running spacing timer: log 16). -/
def Obligations.DebouncedChangeReported : Prop :=
  ∀ (s : State) (n : InputId) (c : Contact) (v u : State) (reported : ManagementUnit), s.input n = c →
    v = s.withInput n { c with level := c.pin, timer := 0, changed := true } →
    reported = s.mu.post 15 [BitVec.ofNat 8 n.val, if c.pin then 1 else 0, c.function.code, v.ci.changeBits] →
    u = { v with mu := reported } →
    (c.timer < 20 → exec (.debouncedChange n) s = .next s) ∧
    (∀ j : Fin 8, u.ci.changeBits.getLsbD j.val = (u.input j).changed) ∧
    (20 ≤ c.timer →
      (c.function = .none ∨ c.function = .general ∨ c.pin ≠ c.activeHigh ∧ c.function ≠ .panelAlarm →
        exec (.debouncedChange n) s = .next u) ∧
      (c.function = .drillStart → c.pin = c.activeHigh → s.dc.localStart = false →
        exec (.debouncedChange n) s = .next { u with dc := { s.dc with localRefused := satInc s.dc.localRefused } }) ∧
      (c.pin = c.activeHigh →
        (c.function = .drillStart ∧ s.dc.localStart = true ∧ (s.dc.state = .sounding ∨ s.dc.state = .silenced) ∨
          c.function = .drillSilence ∧
            (s.dc.state = .idle ∨ s.dc.state = .silenced ∨ s.dc.state = .clearing) ∨
          (c.function = .allClear ∨ c.function = .muster) ∧ (s.dc.state = .idle ∨ s.dc.state = .clearing)) →
        exec (.debouncedChange n) s = .next { u with dc := { s.dc with ignored := satInc s.dc.ignored } }) ∧
      (c.pin = c.activeHigh → s.dc.state = .panel →
        (c.function = .drillStart ∧ s.dc.localStart = true ∨ c.function = .drillSilence ∨ c.function = .allClear ∨
          c.function = .muster) →
        exec (.debouncedChange n) s = .next { u with dc := { s.dc with inPanel := satInc s.dc.inPanel } }) ∧
      (c.function = .drillStart → c.pin = c.activeHigh → s.dc.localStart = true →
        (s.dc.state = .idle ∧ s.dc.seized = 0 ∨ s.dc.state = .clearing) →
        ∃ t, exec (.debouncedChange n) s = .next t ∧
          t.dc = s.drillStarted .input 0 s.drillZones (s.drillZones &&& s.enabledZones) ∧
          t.bs = (if s.dc.state = .idle then { s.bs with replay := .idle, spacing := 0 } else s.bs) ∧
          t.mu = reported.post 13 [if s.dc.state = .idle then 0x10 else 0x13, 1, 0, 0] ∧
          t.ci = u.ci ∧ t.tb = s.tb ∧ t.cc = s.cc ∧ t.li = s.li ∧ t.pending = s.pending ∧
          s.Evacuates t (s.drillZones &&& s.enabledZones)) ∧
      (∀ r rs, c.pin = c.activeHigh → s.dc.openRecord = some 0 → s.dc.ring = r :: rs →
        (c.function = .drillSilence → s.dc.state = .sounding →
          ∃ t, exec (.debouncedChange n) s = .next t ∧
            t.dc = { s.dc with
              state := .silenced,
              ring := { r with silence := some (s.dc.elapsedAt s.tb.tick), limit := false } :: rs } ∧
            t.mu = reported.post 13 ([0x21, 1] ++ be16 r.number) ∧ t.ci = u.ci ∧ t.tb = s.tb ∧ t.bs = s.bs ∧
            t.cc = s.cc ∧ t.li = s.li ∧ t.pending = s.pending ∧ s.Silences t) ∧
        (c.function = .allClear → s.dc.state = .sounding ∨ s.dc.state = .silenced →
          ∃ t, exec (.debouncedChange n) s = .next t ∧
            t.dc = { s.dc with
              state := .clearing, chimeStart := some s.tb.tick, openRecord := none,
              ring := { r with outcome := .cleared, endElapsed := s.dc.elapsedAt s.tb.tick } :: rs } ∧
            t.mu = reported.post 13 ([if s.dc.state = .sounding then 0x31 else 0x32, 1] ++ be16 r.number) ∧
            t.ci = u.ci ∧ t.tb = s.tb ∧ t.bs = s.bs ∧ t.cc = s.cc ∧ t.li = s.li ∧ t.pending = s.pending ∧
            s.Clears t)) ∧
      (c.function = .bellRing → c.pin = c.activeHigh →
        ∃ t, exec (.debouncedChange n) s = .next t ∧
          s.Rings t (.pattern c.pattern) c.zones .input s.startInstant
            { s.bs with inputRung := satInc s.bs.inputRung } { s.bs with inputDeferred := satInc s.bs.inputDeferred } ∧
          t.mu = s.ringing (.pattern c.pattern) c.zones .input s.startInstant reported ∧ t.ci = u.ci ∧
          t.tb = s.tb ∧ t.au = s.au ∧ t.cc = s.cc ∧ t.li = s.li ∧ t.pending = s.pending))

/-- A PANEL_ALARM input going active begins the panel episode from any other state: an OPEN record closes as SUPERSEDED, a
closed one stays, every enabled zone is seized silent at class 7 with its line held, and DRILL_STATE and PANEL_ALARM are
posted. The last of them going inactive places the panel record and hands the building back, and replay begins; another
going active within the episode changes no drill state (08, the fire-panel mirror; 04, drill seizure; the number of a record
already closed is log 18). -/
def Obligations.PanelBeginsAndEnds : Prop :=
  ∀ (s : State) (n : InputId) (c : Contact) (u w : State) (bits : List Byte), s.input n = c → c.function = .panelAlarm →
    20 ≤ c.timer → u = s.withInput n { c with level := c.pin, timer := 0, changed := true } →
    bits = [BitVec.ofNat 8 n.val, if c.pin then 1 else 0, 5, u.ci.changeBits] →
    w = { u with mu := s.mu.post 15 bits } →
    (c.pin = c.activeHigh → s.dc.state ≠ .panel →
      ∃ t, exec (.debouncedChange n) s = .next t ∧ w.EntersPanel t n) ∧
    (c.pin = c.activeHigh → s.dc.state = .panel → exec (.debouncedChange n) s = .next w) ∧
    (c.pin ≠ c.activeHigh → s.dc.state = .panel → (∀ m : InputId, ¬ w.alarms m) →
      ∃ v, exec (.debouncedChange n) s = .next v.replayBegin ∧ w.LeavesPanel v)

/-! ## The signal line -/

/-- A good cell that nothing of this station acts on goes out as it came; a kind 9 to 15 is counted; an EMPTY cell goes out
unchanged when the queue is empty and else carries its head, removed and written as a REPLY or NOTICE cell with a right
check: the station address, the group, a reply's transaction, unit, kind, outcome, payload length and payload, or a notice's
255, flag and snapshot, each in its byte, and zeros behind them (09 forwarding, outbound insertion, Formats; that the subcode
is 0 is log 39). -/
def Obligations.PassingAndEmptyCells : Prop :=
  (∀ s : State, s.li.sync = .up →
    (∀ c : RawCell,
      exec (.replyCell c) s = .next (State.forwards (rawCell 7 c) s) ∧
      exec (.noticeCell c) s = .next (State.forwards (rawCell 8 c) s) ∧
      (∀ kind : BitVec 4, 9 ≤ kind.toNat →
        exec (.unknownKindCell kind c) s = .next
          (State.forwards (rawCell kind c) { s with li := { s.li with unknownKind := satInc s.li.unknownKind } })) ∧
      (s.mu.queue = [] → exec (.emptyCell c) s = .next (State.forwards (rawCell 0 c) s)) ∧
      (∀ e rest, s.mu.queue = e :: rest →
        exec (.emptyCell c) s = .next
          (State.forwards e.cell
            { s with mu := { s.mu with queue := rest }, li := { s.li with sent := satInc s.li.sent } }))) ∧
    (∀ (unit kind : Byte) (c : MgmtCell), ¬ s.isOwn c → ¬ s.isBroadcast c →
      exec (.mgmtForward unit kind c) s = .next (State.forwards (mgmtCell unit kind c) s))) ∧
  ∀ (station : BitVec 6) (group : Fin 16),
    (∀ (transaction unit kind number : Byte) (code : ReplyCode) (payload : List Byte) (e : Outbound),
      (code, number) ∈ [(ReplyCode.ok, (0 : Byte)), (.clamped, 1), (.range, 2), (.inUse, 3), (.busy, 4), (.field, 5),
        (.unknown, 6)] →
      payload.length ≤ 30 → e = .reply station group transaction unit kind code payload →
      cellGood e.cell = true ∧
      e.cell.body.toList =
        [0x70, station.setWidth 8, BitVec.ofNat 8 group.val, transaction, unit, kind, number,
          BitVec.ofNat 8 payload.length] ++ payload ++ List.replicate (30 - payload.length) 0) ∧
    (∀ (flag : Fin 16) (snapshot : List Byte) (e : Outbound), snapshot.length = 4 →
      e = .notice station group flag snapshot →
      cellGood e.cell = true ∧
      e.cell.body.toList =
        [0x80, station.setWidth 8, BitVec.ofNat 8 group.val, 255, BitVec.ofNat 8 flag.val] ++ snapshot ++
          List.replicate 29 0)

/-- A damaged cell goes out as it came, unacted, and is counted; the first fills the error log and posts DAMAGED_CELL, a
later one sets the more mark alone (09, damaged cells). While DOWN it sets the good cells to 0. -/
def Obligations.DamagedCellLogged : Prop :=
  ∀ (s : State) (c : Cell), cellGood c = false →
    (s.li.sync = .down → exec (.damagedCell c) s = .next { s with li := { s.li with good := 0 } }) ∧
    (s.li.sync = .up → s.mu.log = none →
      exec (.damagedCell c) s = .next
        { s with
          li := { s.li with missing := 0, damagedCells := satInc s.li.damagedCells, out := c },
          mu := ({ s.mu with log := some { bytes := c.body.toList.take 8, received := c.check,
                                           computed := crc16 c.body.toList } } : ManagementUnit).post 1
            (be16 c.check ++ be16 (crc16 c.body.toList)) }) ∧
    (s.li.sync = .up → s.mu.log ≠ none →
      exec (.damagedCell c) s = .next
        { s with
          li := { s.li with missing := 0, damagedCells := satInc s.li.damagedCells, out := c },
          mu := { s.mu with more := true } })

/-- The sync table: a cell start sets the missing starts to 0, that of a cell then cut off too; a missing start and a short
cell are replaced by EMPTY, and the fourth missing start in a row brings the line DOWN; the eighth good cell in a row on time
brings it UP, and while DOWN cells are neither acted on nor forwarded and EMPTY cells are sent (09, sync; that the ms DOWN
start at 0 at each change of the sync state and the good cells stand at 8 once UP is log 31; that a SYNC_CELL
given while UP is the start of a cell then cut off, and that a good cell off its time leaves the count, is log 10; that
SOURCED_EMPTY_CELL changes nothing while UP, and every other row of a good cell nothing while DOWN, is log 3). -/
def Obligations.LineSyncTable : Prop :=
  ∀ s : State,
    (s.li.sync = .up →
      exec .shortCell s = .next
        { s with li := { s.li with missing := 0, shortCells := satInc s.li.shortCells, out := emptyCell } } ∧
      (∀ (onTime : Bool) (c : Cell),
        exec (.syncCell onTime c) s = .next { s with li := { s.li with missing := 0 } }) ∧
      (s.li.missing < 3 →
        exec .missingStart s = .next { s with li := { s.li with missing := s.li.missing + 1, out := emptyCell } }) ∧
      (s.li.missing = 3 →
        exec .missingStart s = .next
          { s with
            li := { s.li with missing := 4, sync := .down, good := 0, downMs := 0,
                              syncLosses := satInc s.li.syncLosses, out := emptyCell },
            mu := s.mu.post 2 (be16 (satInc s.li.syncLosses) ++ [BitVec.ofNat 8 s.mu.queue.length, 0]) }) ∧
      exec .sourcedEmptyCell s = .next s) ∧
    (s.li.sync = .down →
      exec .shortCell s = .next { s with li := { s.li with good := 0 } } ∧
      exec .missingStart s = .next { s with li := { s.li with good := 0 } } ∧
      exec .sourcedEmptyCell s = .next { s with li := { s.li with out := emptyCell } } ∧
      (∀ (i : Instr) (x : Cell), cellOf i = some x → cellGood x = true →
        (∀ (onTime : Bool) (c : Cell), i ≠ .syncCell onTime c) → exec i s = .next s) ∧
      ∀ (c : Cell),
        (∀ onTime : Bool, cellGood c = false →
          exec (.syncCell onTime c) s = .next { s with li := { s.li with good := 0 } }) ∧
        (cellGood c = true → exec (.syncCell false c) s = .next s) ∧
        (cellGood c = true → s.li.good < 7 →
          exec (.syncCell true c) s = .next { s with li := { s.li with good := s.li.good + 1 } }) ∧
        (cellGood c = true → s.li.good = 7 →
          exec (.syncCell true c) s = .next
            { s with
              li := { s.li with good := 8, sync := .up, missing := 0, downMs := 0 },
              mu := s.mu.post 3 (be32 (BitVec.ofNat 32 s.li.downMs)) }))

/-! ## Management -/

/-- A request for another station or group is forwarded. One that has transaction 255 is malformed, and one that finds the
queue full is dropped, each counted, with no reply. One addressed to this station is consumed, also where it is malformed or
dropped, and its own place in the stream is filled from the queue; a broadcast to this station's group, at an unaddressed
station too, is never consumed: executed or not, it goes on as it came, and an executed one queues its reply behind the
entries that waited, as ECHO, and a request refused UNKNOWN, show whole (09 management cells, 10 requests; what an executed
request of either form does, the other statements of requests say). -/
def Obligations.RequestsDroppedOrMalformed : Prop :=
  ∀ (i : Instr) (unit kind : Byte) (c : MgmtCell) (s : State), requestOf i = some (unit, kind, c) → s.li.sync = .up →
    (¬ s.isOwn c → ¬ s.isBroadcast c → exec i s = .next (State.forwards (mgmtCell unit kind c) s)) ∧
    (¬ s.isOwn c → s.isBroadcast c →
      (∃ t, exec i s = .next t ∧ t.li.out = mgmtCell unit kind c) ∧
      (c.transaction = 255 →
        exec i s = .next
          (State.forwards (mgmtCell unit kind c) { s with mu := { s.mu with malformed := satInc s.mu.malformed } })) ∧
      (c.transaction ≠ 255 → 8 ≤ s.mu.queue.length →
        exec i s = .next
          (State.forwards (mgmtCell unit kind c) { s with mu := { s.mu with dropped := satInc s.mu.dropped } })) ∧
      (∀ (code : ReplyCode) (payload : List Byte), c.transaction ≠ 255 → s.mu.queue.length < 8 → c.length.toNat ≤ 30 →
        (kind = 0 ∧ unit.toNat ≤ 7 ∧ code = .ok ∧ payload = c.payload.toList.take c.length.toNat ∨
          unit.toNat ∉ acceptingUnits kind.toNat ∧ code = .unknown ∧ payload = []) →
        exec i s = .next
          (State.forwards (mgmtCell unit kind c)
            { s with mu := { s.mu with
              queue := s.mu.queue ++
                [.reply s.mu.station s.mu.group c.transaction unit kind code payload] } }))) ∧
    (∀ waited : LineInterface, s.isOwn c →
      waited = { s.li with missing := 0, goodCells := satInc s.li.goodCells, consumed := satInc s.li.consumed } →
      (c.transaction = 255 →
        (s.mu.queue = [] →
          exec i s = .next
            { s with mu := { s.mu with malformed := satInc s.mu.malformed }, li := { waited with out := emptyCell } }) ∧
        (∀ e rest, s.mu.queue = e :: rest →
          exec i s = .next
            { s with
              mu := { s.mu with queue := rest, malformed := satInc s.mu.malformed },
              li := { waited with sent := satInc s.li.sent, out := e.cell } })) ∧
      (∀ e rest, c.transaction ≠ 255 → s.mu.queue = e :: rest → 7 ≤ rest.length →
        exec i s = .next
          { s with
            mu := { s.mu with queue := rest, dropped := satInc s.mu.dropped },
            li := { waited with sent := satInc s.li.sent, out := e.cell } }))

/-- What a request executed here answers when it only reads or is refused: ECHO copies its payload, READ_SETTING gives the
setting, READ_PAGE gives the 30 bytes of any of the 16 pages and their sections, composed behind its own cell and reply
(log 13), and RANGE past them. A request of any kind is refused UNKNOWN where its unit does not accept the kind, a unit above
7, a kind above 12 and a UNIT_RESET of no unit (log 29) among them, or where it names a setting there is not; and FIELD where
its payload is longer than 30 bytes or shorter than its kind needs, WRITE_PART by the part at the cursor. A refusal, and a
request that reads, changes nothing else (10 requests, settings, pages; the order of the tests is log 12, what a page shows
for a field that holds no value log 30, the last-audio timer of a draining slot log 37). -/
def Obligations.ReadRequestsAnswered : Prop :=
  ∀ (s : State) (c : MgmtCell), s.hears c →
    (∀ (i : Instr) (unit kind : Byte), requestOf i = some (unit, kind, c) →
      (unit.toNat ∉ acceptingUnits kind.toNat →
        exec i s = .next (State.consumes (s.reply unit kind c .unknown []) s)) ∧
      (unit.toNat ∈ acceptingUnits kind.toNat →
        (kind = 2 ∨ kind = 3 → 1 ≤ c.length.toNat → lastSetting unit.toNat < (c.payload[0]).toNat →
          exec i s = .next (State.consumes (s.reply unit kind c .unknown []) s)) ∧
        (∀ n : Nat, s.NeedsBytes kind.toNat n → c.length.toNat < n ∨ 30 < c.length.toNat →
          (kind = 2 ∨ kind = 3 → c.length = 0 ∨ (c.payload[0]).toNat ≤ lastSetting unit.toNat) →
          exec i s = .next (State.consumes (s.reply unit kind c .field []) s)))) ∧
    (c.length.toNat ≤ 30 →
      (∀ unit : Byte, unit.toNat ≤ 7 →
        exec (.echo unit c) s = .next
          (State.consumes (s.reply unit 0 c .ok (c.payload.toList.take c.length.toNat)) s)) ∧
      (∀ (unit : Byte) (value : Nat), 1 ≤ c.length.toNat →
        (unit, c.payload[0], value) ∈
          [((0 : Byte), (0 : Byte), s.mu.group.val), (0, 1, s.mu.mask.toNat), (1, 0, s.tb.stepThreshold),
            (1, 1, s.tb.lossLimit), (1, 2, s.tb.delayComp), (2, 0, s.bs.lateGrace),
            (2, 1, match s.bs.replayPolicy with
                   | .none => 0
                   | .latest => 1
                   | .all => 2),
            (2, 2, s.bs.replaySpacing), (2, 3, s.bs.replayAge), (4, 0, s.au.sessionTimeout), (4, 1, s.au.chimeGain),
            (6, 0, s.dc.soundLimit), (6, 1, s.dc.drillGain), (6, 2, s.drillZones.toNat),
            (6, 3, if s.dc.localStart then 1 else 0)] →
        exec (.readSetting unit c) s = .next
          (State.consumes (s.reply unit 3 c .ok (c.payload[0] :: be32 (BitVec.ofNat 32 value))) s)) ∧
      (2 ≤ c.length.toNat →
        (∀ page k : Nat, (c.payload[0]).toNat = page → (c.payload[1]).toNat = k → page ≤ 15 →
          (k = 0 ∨ k = 1 ∧ (page = 5 ∨ page = 7 ∨ page = 8 ∨ page = 13 ∨ page = 14) →
            ∃ bytes : List Byte, State.PageShows (s.asked (s.reply 0 1 c .ok [])) page k bytes ∧
              exec (.readPage 0 c) s = .next
                (State.consumes (s.reply 0 1 c .ok ((bytes ++ List.replicate 30 0).take 30)) s)) ∧
          (1 < k ∨ k = 1 ∧ page ≠ 5 ∧ page ≠ 7 ∧ page ≠ 8 ∧ page ≠ 13 ∧ page ≠ 14 →
            exec (.readPage 0 c) s = .next (State.consumes (s.reply 0 1 c .range []) s))) ∧
        (15 < (c.payload[0]).toNat →
          exec (.readPage 0 c) s = .next (State.consumes (s.reply 0 1 c .range []) s))))

/-- A write of a setting takes its value, clamped to its range, and answers it, a write of the group under the old group. The
step threshold bounds S with its sign kept, and changes nothing else. Those that act at once do so behind the reply: the
beacon-loss limit brings HOLDOVER where the timer stands at it, the session timeout a timeout, the sound limit the silence;
the chime gain and the drill gain retarget the zones that sound them, and the drill zones setting sets the field of every
zone. The session timeout is said for at most one slot that is due (10 settings; 01, 03, 04, 05, 08, the settings of the
units; a ramp that finds its target at its gain is STEADY: log 19; that a group write leaves the notices that wait under the
old group is log 40). -/
def Obligations.SettingWritesTaken : Prop :=
  ∀ (s : State) (c : MgmtCell) (v : Nat), s.hears c → 5 ≤ c.length.toNat → c.length.toNat ≤ 30 →
    v = ((c.payload[1] ++ c.payload[2]) ++ (c.payload[3] ++ c.payload[4]) : BitVec 32).toNat →
    (c.payload[0] = 0 →
      (∀ g : Fin 16, g.val = min 15 v → s.Writes 0 c v g.val { s with mu := { s.mu with group := g } }) ∧
      (∀ t : Nat, t = max 100 (min 60000 v) →
        s.Writes 1 c v t
          { s with tb := { s.tb with
            stepThreshold := t,
            slew := if (t : Int) < |s.tb.slew| then (if 0 < s.tb.slew then (t : Int) else -(t : Int))
              else s.tb.slew } }) ∧
      (∀ t : Nat, t = min 300 v → s.Writes 2 c v t { s with bs := { s.bs with lateGrace := t } }) ∧
      (∀ (t : Nat) (n : SlotId), t = max 1 (min 10 v) →
        (∀ m : SlotId, m ≠ n → (s.slot m).state ≠ .live ∨ (s.slot m).audioTimer < t * 1000) →
        s.WritesThen 4 c v t (fun w => { w with au := { w.au with sessionTimeout := t } }) (.sessionTimeout n)) ∧
      (∀ t : Nat, t = max 30 (min 900 v) →
        s.WritesThen 6 c v t (fun w => { w with dc := { w.dc with soundLimit := t } }) .soundLimit)) ∧
    (c.payload[0] = 1 →
      (∀ t : Nat, t = min 65535 v → s.Writes 0 c v t { s with mu := { s.mu with mask := BitVec.ofNat 16 t } }) ∧
      (∀ t : Nat, t = max 3 (min 255 v) →
        s.WritesThen 1 c v t (fun w => { w with tb := { w.tb with lossLimit := t } }) .beaconLossExpiry) ∧
      (∀ (t : Nat) (policy : ReplayPolicy), t = min 2 v →
        (t = 0 ∧ policy = .none ∨ t = 1 ∧ policy = .latest ∨ t = 2 ∧ policy = .all) →
        s.Writes 2 c v t { s with bs := { s.bs with replayPolicy := policy } }) ∧
      (∀ t : Nat, t = min 80 v →
        ∃ u : State, s.Writes 4 c v t u ∧ u = { s with au := { s.au with chimeGain := t }, za := u.za } ∧
          ∀ z : Zone, u.zone z =
            if (s.zone z).owner = .drill ∧ (s.zone z).drillSource = some .allClear then
              (s.zone z).aimedAt (if (s.zone z).releasing then 0 else min t (s.zone z).maxGain)
            else s.zone z) ∧
      (∀ t : Nat, t = min 80 v →
        ∃ u : State, s.Writes 6 c v t u ∧ u = { s with dc := { s.dc with drillGain := t }, za := u.za } ∧
          ∀ z : Zone, u.zone z =
            if (s.zone z).owner = .drill ∧ (s.zone z).drillSource = some .evac then
              (s.zone z).aimedAt
                (if (s.zone z).releasing then 0
                 else min (if t = 0 then (s.zone z).defaultGain else t) (s.zone z).maxGain)
            else s.zone z)) ∧
    (c.payload[0] = 2 →
      (∀ t : Nat, t = min 65535 v → s.Writes 1 c v t { s with tb := { s.tb with delayComp := t } }) ∧
      (∀ t : Nat, t = max 2 (min 30 v) → s.Writes 2 c v t { s with bs := { s.bs with replaySpacing := t } }) ∧
      (∀ t : Nat, t = min 65535 v →
        ∃ u : State, s.Writes 6 c v t u ∧ u = { s with za := u.za } ∧
          ∀ z : Zone, u.zone z = { s.zone z with inDrill := memSet z (BitVec.ofNat 16 t) })) ∧
    (c.payload[0] = 3 →
      (∀ t : Nat, t = min 3600 v → s.Writes 2 c v t { s with bs := { s.bs with replayAge := t } }) ∧
      (∀ t : Nat, t = min 1 v → s.Writes 6 c v t { s with dc := { s.dc with localStart := decide (t = 1) } }))

/-- SET_CURSOR points at an entry of its table's window and drops what was staged, with FIELD for an unknown table and RANGE
past the window. WRITE_PART stages any part of an entry but its last and moves to the next, and above part 0 with nothing
staged it is refused FIELD and returns to part 0. READ_PART gives the bytes of the part as the entry stands in its table and
moves on, past the last part to the next index; with parts staged it drops them and gives part 0. Past the end of the window
WRITE_PART, READ_PART and CLEAR_ENTRY are refused RANGE and the cursor stays. The codes, windows and parts of the tables are
those of R171. CLEAR_EVENTS clears the flags its mask names, with INPUT_CHANGE the change bits too, and CLEAR_LOG empties the
error log (10 tables, events, the error log; the 26 bytes of a part are log 14; the commit of a last part and the clear of an
entry have a statement of their own). -/
def Obligations.CursorEventAndLogRequests : Prop :=
  ∀ (s : State) (c : MgmtCell), s.hears c → c.length.toNat ≤ 30 →
    (2 ≤ c.length.toNat →
      (∀ table : Table, table.shape.code = c.payload[0] →
        ((c.payload[1]).toNat < table.shape.window →
          exec (.setCursor 0 c) s = .next
            (State.consumes (s.reply 0 4 c .ok [c.payload[0], c.payload[1], 0])
              { s with mu := { s.mu with cursor := { table, index := (c.payload[1]).toNat, part := 0 }, staged := [] } })) ∧
        (table.shape.window ≤ (c.payload[1]).toNat →
          exec (.setCursor 0 c) s = .next
            (State.consumes (s.reply 0 4 c .range []) { s with mu := { s.mu with staged := [] } }))) ∧
      (13 < (c.payload[0]).toNat →
        exec (.setCursor 0 c) s = .next
          (State.consumes (s.reply 0 4 c .field []) { s with mu := { s.mu with staged := [] } }))) ∧
    (∀ (cur : Cursor) (shape : TableShape) (size : Nat), s.mu.cursor = cur → cur.table.shape = shape →
      shape.sizes[cur.part]? = some size →
      (size ≤ c.length.toNat → cur.index < shape.window → s.mu.staged.length = cur.part →
        cur.part + 1 < shape.sizes.length →
        exec (.writePart 0 c) s = .next
          (State.consumes (s.reply 0 5 c .ok [shape.code, BitVec.ofNat 8 cur.index, BitVec.ofNat 8 cur.part])
            { s with mu := { s.mu with
              cursor := { cur with part := cur.part + 1 },
              staged := s.mu.staged ++ [Vector.ofFn fun i : Fin 26 => c.payload[i.val]] } })) ∧
      (size ≤ c.length.toNat → cur.index < shape.window → s.mu.staged = [] → 0 < cur.part →
        exec (.writePart 0 c) s = .next
          (State.consumes (s.reply 0 5 c .field []) { s with mu := { s.mu with cursor := { cur with part := 0 } } })) ∧
      (∀ part : Nat, cur.index < shape.window → part = (if s.mu.staged = [] then cur.part else 0) →
        exec (.readPart 0 c) s = .next
          (State.consumes
            (s.reply 0 6 c .ok
              ([shape.code, BitVec.ofNat 8 cur.index, BitVec.ofNat 8 part] ++
                (s.partShown cur.table cur.index part ++ List.replicate 26 0).take 26))
            { s with mu := { s.mu with
              staged := [],
              cursor := if part + 1 < shape.sizes.length then { cur with part := part + 1 }
                else { cur with index := cur.index + 1, part := 0 } } })) ∧
      (shape.window ≤ cur.index → s.mu.staged = [] →
        exec (.readPart 0 c) s = .next (State.consumes (s.reply 0 6 c .range []) s) ∧
        exec (.clearEntry 0 c) s = .next (State.consumes (s.reply 0 7 c .range []) s) ∧
        (size ≤ c.length.toNat →
          exec (.writePart 0 c) s = .next (State.consumes (s.reply 0 5 c .range []) s)))) ∧
    (∀ mask : BitVec 16, 2 ≤ c.length.toNat → mask = c.payload[0] ++ c.payload[1] →
      exec (.clearEvents 0 c) s = .next
        (State.consumes (s.reply 0 8 c .ok (be16 (s.mu.flags &&& ~~~mask)))
          { s with
            mu := { s.mu with flags := s.mu.flags &&& ~~~mask },
            ci := if memSet 15 mask then { inputs := Vector.ofFn fun n : InputId => { s.input n with changed := false } }
              else s.ci })) ∧
    exec (.clearLog 0 c) s = .next
      (State.consumes (s.reply 0 9 c .ok []) { s with mu := { s.mu with log := none, more := false } })

/-- The last part of a PLANn, DAYMAP, EXCEPT, PATTERN, CIRCUIT or INPUT entry commits the staged record, or refuses FIELD a
field out of its range, and CLEAR_ENTRY commits the power-on record, by each table's rule; the cursor moves to the next index
in every case, with nothing staged. A slot of the active plan is refused IN_USE; a slot written not valid is emptied with
nothing else checked; a day map or exception entry selects again, and takes the source with it where the selection stays as
it was (DEDUCED, log 15); a circuit with an impulse in flight is refused BUSY, and else acts at once by what changed; an input
record acts on no edge, but the panel condition is worked out again, and where that begins PANEL out of CLEARING the report
carries the closed record's number (DEDUCED, log 18) (02 plans, day map and exceptions, 03 pattern table, 06
records, 07 record changes, 08 inputs, 10 tables; the ZONE table has a statement of its own; on a display circuit the frame
takes 8 ms of tick, log 27). -/
def Obligations.EntriesCommittedAndCleared : Prop :=
  ∀ (s : State) (c : MgmtCell) (index : Nat), s.hears c → c.length.toNat ≤ 30 →
    (∀ (n : Fin 8) (i : Fin 48) (part0 part1 : Part), i.val = index → 2 ≤ c.length.toNat →
      s.mu.cursor = { table := .plan n, index, part := 2 } → s.mu.staged = [part0, part1] →
      (s.bs.selection = .plan n →
        exec (.writePart 0 c) s = .next
          (State.consumes (s.reply 0 5 c .inUse []) (s.movedPast (.plan n) index))) ∧
      (∀ e : PlanEvent, s.bs.selection ≠ .plan n →
        (part0[0] = 0 ∧
            e = { valid := false, time := 0, zones := 0, action := .bell, pattern := 0, label := none } ∨
          part0[0] ≠ 0 ∧ e.valid = true ∧ e.time ≤ 86399 ∧
            e.time = ((part0[1]).toNat * 256 + (part0[2]).toNat) * 256 + (part0[3]).toNat ∧
            e.zones = part1[0] ++ part1[1] ∧ e.pattern.val = (c.payload[0]).toNat ∧
            (part1[2]).toNat = (match e.action with
                                | .bell => 0
                                | .chime => 1
                                | .mark => 2) ∧
            (c.payload[1] = 255 ∧ e.label = none ∨ (c.payload[1]).toNat ≤ 99 ∧ e.label = some (c.payload[1]).toNat)) →
        exec (.writePart 0 c) s = .next
          (State.consumes (s.reply 0 5 c .ok [BitVec.ofNat 8 n.val, BitVec.ofNat 8 index, 2])
            { s.movedPast (.plan n) index with
              bs := { s.bs with plans := s.bs.plans.set n (s.bs.plans[n].set i e) } })) ∧
      (s.bs.selection ≠ .plan n → part0[0] ≠ 0 →
        86399 < ((part0[1]).toNat * 256 + (part0[2]).toNat) * 256 + (part0[3]).toNat ∨ 2 < (part1[2]).toNat ∨
          15 < (c.payload[0]).toNat ∨ 99 < (c.payload[1]).toNat ∧ c.payload[1] ≠ 255 →
        exec (.writePart 0 c) s = .next
          (State.consumes (s.reply 0 5 c .field []) (s.movedPast (.plan n) index)))) ∧
    (∀ (n : Fin 8) (i : Fin 48) (part : Nat), i.val = index → s.mu.cursor = { table := .plan n, index, part } →
      exec (.clearEntry 0 c) s = .next
        (if s.bs.selection = .plan n then State.consumes (s.reply 0 7 c .inUse []) (s.movedPast (.plan n) index)
         else
           State.consumes (s.reply 0 7 c .ok [BitVec.ofNat 8 n.val, BitVec.ofNat 8 index])
             { s.movedPast (.plan n) index with
               bs := { s.bs with plans := s.bs.plans.set n (s.bs.plans[n].set i PlanEvent.empty) } })) ∧
    (∀ i : Fin 7, i.val = index →
      (1 ≤ c.length.toNat → s.mu.cursor = { table := .dayMap, index, part := 0 } → s.mu.staged = [] →
        (∀ choice : PlanChoice,
          (c.payload[0] = 255 ∧ choice = none ∨ ∃ n, choice = some n ∧ c.payload[0] = BitVec.ofNat 8 n.val) →
          exec (.writePart 0 c) s = .next
            (State.consumes (s.reply 0 5 c .ok [8, BitVec.ofNat 8 index, 0])
              ((s.movedPast .dayMap index).selecting { s.bs with dayMap := s.bs.dayMap.set i choice }))) ∧
        (7 < (c.payload[0]).toNat ∧ c.payload[0] ≠ 255 →
          exec (.writePart 0 c) s = .next
            (State.consumes (s.reply 0 5 c .field []) (s.movedPast .dayMap index)))) ∧
      (∀ part : Nat, s.mu.cursor = { table := .dayMap, index, part } →
        exec (.clearEntry 0 c) s = .next
          (State.consumes (s.reply 0 7 c .ok [8, BitVec.ofNat 8 index])
            ((s.movedPast .dayMap index).selecting { s.bs with dayMap := s.bs.dayMap.set i none })))) ∧
    (∀ (i : Fin 32) (part0 : Part), i.val = index →
      (1 ≤ c.length.toNat → s.mu.cursor = { table := .except, index, part := 1 } → s.mu.staged = [part0] →
        (∀ x : Exception,
          (part0[0] = 0 ∧ x = { valid := false, day := 0, plan := none } ∨
            part0[0] ≠ 0 ∧ x.valid = true ∧ x.day = part0[1] ++ part0[2] ∧
              (c.payload[0] = 255 ∧ x.plan = none ∨ ∃ n, x.plan = some n ∧ c.payload[0] = BitVec.ofNat 8 n.val)) →
          exec (.writePart 0 c) s = .next
            (State.consumes (s.reply 0 5 c .ok [9, BitVec.ofNat 8 index, 1])
              ((s.movedPast .except index).selecting { s.bs with exceptions := s.bs.exceptions.set i x }))) ∧
        (part0[0] ≠ 0 → 7 < (c.payload[0]).toNat ∧ c.payload[0] ≠ 255 →
          exec (.writePart 0 c) s = .next
            (State.consumes (s.reply 0 5 c .field []) (s.movedPast .except index)))) ∧
      (∀ part : Nat, s.mu.cursor = { table := .except, index, part } →
        exec (.clearEntry 0 c) s = .next
          (State.consumes (s.reply 0 7 c .ok [9, BitVec.ofNat 8 index])
            ((s.movedPast .except index).selecting
              { s.bs with exceptions := s.bs.exceptions.set i { valid := false, day := 0, plan := none } })))) ∧
    (∀ (i : Fin 16) (part0 : Part) (r : Pattern), i.val = index →
      (1 ≤ c.length.toNat → s.mu.cursor = { table := .pattern, index, part := 1 } → s.mu.staged = [part0] →
        r = { lead := (part0[0]).toNat * 100, a := (part0[1]).toNat, b := (part0[2]).toNat,
              strokes := (c.payload[0]).toNat } →
        exec (.writePart 0 c) s = .next
          (if r.Ok then
             State.consumes (s.reply 0 5 c .ok [10, BitVec.ofNat 8 index, 1])
               { s.movedPast .pattern index with bo := { s.bo with patterns := s.bo.patterns.set i r } }
           else State.consumes (s.reply 0 5 c .field []) (s.movedPast .pattern index))) ∧
      (∀ part : Nat, s.mu.cursor = { table := .pattern, index, part } →
        exec (.clearEntry 0 c) s = .next
          (State.consumes (s.reply 0 7 c .ok [10, BitVec.ofNat 8 index])
            { s.movedPast .pattern index with
              bo := { s.bo with patterns := s.bo.patterns.set i { lead := 0, a := 0, b := 0, strokes := 0 } } }))) ∧
    (∀ (k : CircuitId) (part0 : Part), k.val = index →
      (6 ≤ c.length.toNat → s.mu.cursor = { table := .circuit, index, part := 1 } → s.mu.staged = [part0] →
        ((s.circuit k).inFlight ≠ none →
          exec (.writePart 0 c) s = .next
            (State.consumes (s.reply 0 5 c .busy []) (s.movedPast .circuit index))) ∧
        (∀ g : CircuitConfig, (s.circuit k).inFlight = none →
          (part0[0]).toNat = (match g.mode with
                              | .off => 0
                              | .minute => 1
                              | .half => 2
                              | .display => 3) →
          g.width = (part0[1]).toNat * 100 → 1 ≤ (part0[1]).toNat → (part0[1]).toNat ≤ 20 →
          g.hold = (part0[2]).toNat → g.hold ≤ 120 → g.split = (c.payload[0]).toNat → g.split ≤ 8 →
          (c.payload[1]).toNat = (match g.regionA with
                                  | .hhmm24 => 0
                                  | .hhmm12 => 1
                                  | .hhmmss => 2) →
          (c.payload[2]).toNat = (match g.regionB with
                                  | .blank => 0
                                  | .remain => 1
                                  | .label => 2
                                  | .seconds => 3) →
          g.drillSplit = (c.payload[3]).toNat → g.drillSplit ≤ 8 → g.linked = c.payload[4] ++ c.payload[5] →
          ∃ t, s.CircuitTakes t k g ∧
            exec (.writePart 0 c) s = .next
              (State.consumes (s.reply 0 5 c .ok [12, BitVec.ofNat 8 index, 1]) (t.movedPast .circuit index))) ∧
        ((s.circuit k).inFlight = none →
          3 < (part0[0]).toNat ∨ part0[1] = 0 ∨ 20 < (part0[1]).toNat ∨ 120 < (part0[2]).toNat ∨
            8 < (c.payload[0]).toNat ∨ 2 < (c.payload[1]).toNat ∨ 3 < (c.payload[2]).toNat ∨ 8 < (c.payload[3]).toNat →
          exec (.writePart 0 c) s = .next
            (State.consumes (s.reply 0 5 c .field []) (s.movedPast .circuit index)))) ∧
      (∀ part : Nat, s.mu.cursor = { table := .circuit, index, part } →
        ((s.circuit k).inFlight ≠ none →
          exec (.clearEntry 0 c) s = .next
            (State.consumes (s.reply 0 7 c .busy []) (s.movedPast .circuit index))) ∧
        ((s.circuit k).inFlight = none →
          ∃ t, s.CircuitTakes t k CircuitConfig.initial ∧
            exec (.clearEntry 0 c) s = .next
              (State.consumes (s.reply 0 7 c .ok [12, BitVec.ofNat 8 index]) (t.movedPast .circuit index))))) ∧
    (∀ (n : InputId) (part0 : Part), n.val = index →
      (3 ≤ c.length.toNat → s.mu.cursor = { table := .input, index, part := 1 } → s.mu.staged = [part0] →
        (∀ (function : InputFunction) (activeHigh : Bool) (pattern : Fin 16),
          (part0[0]).toNat = (match function with
                             | .none => 0
                             | .drillStart => 1
                             | .drillSilence => 2
                             | .muster => 3
                             | .allClear => 4
                             | .panelAlarm => 5
                             | .bellRing => 6
                             | .general => 7) →
          (part0[1]).toNat = (if activeHigh then 1 else 0) → pattern.val = (c.payload[0]).toNat →
          (State.asked (s.reply 0 5 c .ok [13, BitVec.ofNat 8 index, 1])
            ((s.movedPast .input index).withInput n
              { s.input n with function, activeHigh, pattern, zones := c.payload[1] ++ c.payload[2] })).PanelFollows
            (s.reply 0 5 c .ok [13, BitVec.ofNat 8 index, 1]) s (.writePart 0 c)) ∧
        (7 < (part0[0]).toNat ∨ 1 < (part0[1]).toNat ∨ 15 < (c.payload[0]).toNat →
          exec (.writePart 0 c) s = .next
            (State.consumes (s.reply 0 5 c .field []) (s.movedPast .input index)))) ∧
      (∀ part : Nat, s.mu.cursor = { table := .input, index, part } →
        (State.asked (s.reply 0 7 c .ok [13, BitVec.ofNat 8 index])
          ((s.movedPast .input index).withInput n
            { s.input n with function := .none, activeHigh := false, pattern := 0, zones := 0 })).PanelFollows
          (s.reply 0 7 c .ok [13, BitVec.ofNat 8 index]) s (.clearEntry 0 c)))

/-! ## Resets -/

/-- The unit resets of time, bells and clocks: S and the loss timer 0; every pattern cut and the pending list, the deferred
queue and replay emptied, with the discards counted; every impulse circuit decided, or at the end of its impulse, and every
display circuit's cadence begun again with a frame of the values that stand (01, 03, 06 and 07 resets; a frame takes 8 ms of
tick, log 27). -/
def Obligations.TimeBellAndClockUnitResets : Prop :=
  ∀ (s : State) (c : MgmtCell), s.hears c → c.length.toNat ≤ 30 →
    (exec (.unitResetTime c) s = .next
      (State.consumes (s.reply 1 11 c .ok []) { s with tb := { s.tb with slew := 0, lossTimer := 0 } })) ∧
    (∃ t, exec (.unitResetBells c) s = .next (State.consumes (s.reply 2 11 c .ok []) t) ∧
      t = { s with bs := t.bs, bo := t.bo, za := t.za } ∧ t.bo.patterns = s.bo.patterns ∧
      t.bs = { s.bs with
        pendingBells := [], deferred := [], marker := false, replay := .idle, spacing := 0,
        deferredOverruns := if s.bs.marker then satInc s.bs.deferredOverruns else s.bs.deferredOverruns,
        replayDiscarded := satAdd s.bs.replayDiscarded s.bs.deferred.length } ∧
      ∀ z : Zone, (t.bo.players[z]).phase = .done ∧
        t.zone z = { s.zone z with bellOwner := if (s.zone z).bellOwner = .drill then .drill else .none }) ∧
    (∃ t, exec (.unitResetClocks c) s = .next (State.consumes (s.reply 5 11 c .ok []) t) ∧
      t = { s with cc := t.cc } ∧
      ∀ k : CircuitId,
        ((s.circuit k).inFlight ≠ none → t.circuit k = { s.circuit k with resetPending := true }) ∧
        ((s.circuit k).inFlight = none → (s.circuit k).config.mode ≠ .display →
          t.circuit k = (s.circuit k).decide
            (if (s.circuit k).config.mode = .off ∨ s.tb.state = .unset then none
             else some (targetAt (s.circuit k).config.mode s.tb.now))) ∧
        ((s.circuit k).inFlight = none → (s.circuit k).config.mode = .display →
          ∃ f, s.FrameOk (s.circuit k).config f ∧
            t.circuit k = { s.circuit k with frame := some f, sendLeft := 8, frameTimer := 500 }))

/-- The unit resets of zones and announce: the live part of every zone is cleared and built again, here with no drill, so
that a zone no slot wants has no owner and one a single slot wants is granted to it from gain 0; every session ends at
once, and the zones slots own are released (04, 05 resets). -/
def Obligations.ZoneAndAnnounceUnitResets : Prop :=
  ∀ (s : State) (c : MgmtCell), s.hears c → c.length.toNat ≤ 30 →
    (s.dc.state = .idle → s.dc.seized = 0 → (∀ z : Zone, (s.zone z).releasing = false) →
      ∃ t, exec (.unitResetZones c) s = .next (State.consumes (s.reply 3 11 c .ok []) t) ∧
        t = { s with za := t.za, bo := t.bo, au := t.au } ∧ t.bo.patterns = s.bo.patterns ∧
        ∀ z : Zone, (t.bo.players[z]).phase = .done ∧
          ((∀ n : SlotId, ¬ s.WantsZone z n) → t.zone z = (s.zone z).cleared) ∧
          (∀ n : SlotId, (s.zone z).enabled = true → s.WantsZone z n →
            (∀ m : SlotId, m ≠ n → ¬ s.WantsZone z m) →
            (t.zone z).owner = .slot n ∧ (t.zone z).cls = .rank (s.slot n).priority ∧ (t.zone z).gain = 0 ∧
            (t.zone z).target = min (s.slot n).targetGain (s.zone z).maxGain ∧ (t.zone z).bellOwner = .none ∧
            memSet z (t.slot n).granted = true)) ∧
    (∃ t, exec (.unitResetAnnounce c) s = .next (State.consumes (s.reply 4 11 c .ok []) t) ∧
      t = { s with za := t.za, au := t.au } ∧
      (∀ n : SlotId, (s.slot n).state ≠ .free →
        (t.slot n).channel = none ∧ (t.slot n).openOrder = 0 ∧ (t.slot n).buffer = [] ∧ (t.slot n).playout = false ∧
        ((t.slot n).state = .free ∨ (t.slot n).state = .draining) ∧
        ((s.slot n).granted = 0 → t.slot n = Slot.free)) ∧
      ∀ (z : Zone) (n : SlotId), (s.zone z).owner = .slot n → (s.zone z).releasing = false → 0 < (s.zone z).gain →
        (s.zone z).claimant = none →
        t.zone z = { s.zone z with
          releasing := true, target := 0, ramp := .down,
          rampTimer := if (s.zone z).ramp = .steady then 2 else (s.zone z).rampTimer })

/-- The unit resets of drill and inputs. The drill unit closes an OPEN record as RESET, or places the panel record as RESET,
hands the building back in every state, IDLE included, begins replay, posts DRILL_STATE with cause reset behind the reply,
and enters PANEL again at once where a PANEL_ALARM input still stands active. Every input takes its inactive level with its
timer 0 and its change bit clear, and where that ends a panel episode the drill controller leaves PANEL (08 resets; that the
report of a change out of CLEARING, where no record is open, carries the newest record's number is log 18). -/
def Obligations.DrillAndInputUnitResets : Prop :=
  ∀ (s : State) (c : MgmtCell), s.hears c → c.length.toNat ≤ 30 →
    (∀ (before : Byte) (number : BitVec 16) (ring : List DrillRecord) (a : State),
      a = s.asked (s.reply 6 11 c .ok []) →
      (s.dc.state = .idle ∧ s.dc.openRecord = none ∧ before = 0 ∧ number = 0 ∧ ring = s.dc.ring ∨
        (∃ r rs, s.dc.ring = r :: rs ∧ number = r.number ∧
          (s.dc.state = .clearing ∧ s.dc.openRecord = none ∧ before = 3 ∧ ring = r :: rs ∨
            (s.dc.state = .sounding ∧ before = 1 ∨ s.dc.state = .silenced ∧ before = 2) ∧
              s.dc.openRecord = some 0 ∧
              ring = { r with outcome := .reset, endElapsed := s.dc.elapsedAt s.tb.tick } :: rs)) ∨
        s.dc.state = .panel ∧ s.dc.openRecord = none ∧ before = 4 ∧ number = 0 ∧
          (∃ start instant, s.dc.panelStart = some (start, instant) ∧
            ring = ({ kind := .panel, number := 0, source := .input, start := instant, silence := none, limit := false,
                      muster := none, musters := 0, endElapsed := min 16777215 (s.tb.tick - start).toNat,
                      outcome := .reset, deferred := s.dc.panelDeferred, lost := s.dc.panelLost } ::
                    s.dc.ring).take 4)) →
      ∃ u, u.dc = s.dc.resting ring ∧ u.mu = a.mu.post 13 ([before, 5] ++ be16 number) ∧ u.li = a.li ∧
        u.ci = s.ci ∧ s.HandsBack u ∧
        ((∀ n : InputId, ¬ s.alarms n) → exec (.unitResetDrill c) s = .next (u.replayBegin.sends (s.reply 6 11 c .ok []))) ∧
        (∀ n : InputId, s.alarms n → (∀ m : InputId, m < n → ¬ s.alarms m) →
          ∃ t, exec (.unitResetDrill c) s = .next (t.sends (s.reply 6 11 c .ok [])) ∧ u.replayBegin.EntersPanel t n)) ∧
    (∀ a : State,
      a = State.asked (s.reply 7 11 c .ok [])
        { s with ci := { inputs := Vector.ofFn fun n : InputId =>
          { s.input n with level := !(s.input n).activeHigh, timer := 0, changed := false } } } →
      (s.dc.state ≠ .panel → exec (.unitResetInputs c) s = .next (a.sends (s.reply 7 11 c .ok []))) ∧
      (s.dc.state = .panel →
        ∃ t, exec (.unitResetInputs c) s = .next (t.replayBegin.sends (s.reply 7 11 c .ok [])) ∧ a.LeavesPanel t))

/-- STATION_RESET clears the running state of every unit, closes the OPEN record as RESET, or in PANEL places the panel record
with outcome RESET, and keeps the time, the tables, the settings and the retained store. An impulse circuit decides, or at the
end of its impulse, and a display circuit's cadence begins again with a frame of the values the reset leaves. It makes no
reply: the RESTART notice stands alone in the queue, and goes out in the request's own place where the request is addressed to
this station; a broadcast goes on as it came, and the notice waits (10 station reset, 01 to 09 resets; a frame takes 8 ms of
tick, log 27). -/
def Obligations.StationResetClears : Prop :=
  ∀ (s : State) (c : MgmtCell), s.hears c → c.length.toNat ≤ 30 →
    ∃ t, exec (.stationReset 0 c) s = .next t ∧ t.pending = s.pending ∧
      t.tb = { s.tb with slew := 0, lossTimer := 0 } ∧
      t.bs = { s.bs with
        pendingBells := [], deferred := [], marker := false, replay := .idle, spacing := 0,
        deferredOverruns := if s.bs.marker then satInc s.bs.deferredOverruns else s.bs.deferredOverruns,
        replayDiscarded := satAdd s.bs.replayDiscarded s.bs.deferred.length } ∧
      t.bo.patterns = s.bo.patterns ∧
      (∀ z : Zone, (t.bo.players[z]).phase = .done ∧
        t.zone z = { ZoneRec.initial with enabled := (s.zone z).enabled, inDrill := (s.zone z).inDrill,
                                          maxGain := (s.zone z).maxGain, defaultGain := (s.zone z).defaultGain }) ∧
      t.au = { s.au with slots := t.au.slots } ∧ (∀ n : SlotId, t.slot n = Slot.free) ∧
      (∀ r rs, s.dc.state = .sounding ∨ s.dc.state = .silenced → s.dc.openRecord = some 0 → s.dc.ring = r :: rs →
        t.dc = s.dc.resting ({ r with outcome := .reset, endElapsed := s.dc.elapsedAt s.tb.tick } :: rs)) ∧
      (s.dc.state = .idle ∨ s.dc.state = .clearing → s.dc.openRecord = none → t.dc = s.dc.resting s.dc.ring) ∧
      (∀ start instant, s.dc.state = .panel → s.dc.panelStart = some (start, instant) → s.dc.openRecord = none →
        t.dc = s.dc.resting (({ kind := .panel, number := 0, source := .input, start := instant, silence := none,
                                limit := false, muster := none, musters := 0,
                                endElapsed := min 16777215 (s.tb.tick - start).toNat, outcome := .reset,
                                deferred := s.dc.panelDeferred, lost := s.dc.panelLost } :: s.dc.ring).take 4)) ∧
      (∀ n : InputId,
        t.input n = { s.input n with level := !(s.input n).activeHigh, timer := 0, changed := false }) ∧
      (∀ k : CircuitId,
        ((s.circuit k).inFlight ≠ none → t.circuit k = { s.circuit k with resetPending := true }) ∧
        ((s.circuit k).inFlight = none → (s.circuit k).config.mode ≠ .display →
          t.circuit k = (s.circuit k).decide (s.target k)) ∧
        ((s.circuit k).inFlight = none → (s.circuit k).config.mode = .display →
          ∃ f, t.FrameOk (s.circuit k).config f ∧
            t.circuit k = { s.circuit k with frame := some f, sendLeft := 8, frameTimer := 500 })) ∧
      ∀ (a : Answered) (u : State), a = s.reply 0 12 c .ok [] →
        u = { s.asked a with mu := { s.mu with
          queue := [.notice s.mu.station s.mu.group 0 [2, s.mu.station.setWidth 8, BitVec.ofNat 8 s.mu.group.val, 0]],
          flags := 1, log := none, more := false, staged := [], cause := .stationReset,
          cursor := { table := .plan 0, index := 0, part := 0 } } } →
        t.mu = (u.sends a).mu ∧ t.li = (u.sends a).li

/-! ## Headline results -/

/-- The cell a well-formed command stands for is read back as that command, with every field at every value; a MGMT cell is
read as the request it carries, and a cell received while DOWN by its own kind. The command any received cell is read as
stands for that cell with every byte and its check, and the 40 bytes of a cell, the check's high byte in byte 38, are read
back as that cell (09, cell structure and check; Formats). -/
def Obligations.CellsReadBack : Prop :=
  (∀ (i : Instr) (c : Cell), i.wellFormed = true → cellOf i = some c →
    (∀ unit kind m, i ≠ .mgmtForward unit kind m) → (∀ onTime d, i ≠ .syncCell onTime d) → readCell c = i) ∧
  (∀ c : Cell, cellOf (readCell c) = some c) ∧
  (∀ c : Cell, cellOfBytes (cellBytes c) = c ∧
    (∀ i : Fin 38, (cellBytes c)[i.val] = c.body[i]) ∧ (cellBytes c)[38] ++ (cellBytes c)[39] = c.check) ∧
  ∀ b : Vector Byte 40, cellBytes (cellOfBytes b) = b ∧ readBytes b = readCell (cellOfBytes b)

/-- Every step keeps the laws of the time base: the record in its range, the phase below 100, S within the step threshold,
the kept step amount and the loss timer in their ranges, and the settings in theirs; that H is never earlier than now, while
the days concerned lie within half the day-number circle, where later than orders them; and the law of each clock circuit,
with its retained store rewritten by SET_DIAL, a MGMT cell of request kind 10 whatever row it stands in (log 11), or one
position on, with opposite polarity, by an impulse that starts in that step, and by nothing else (01; 02, the mark; 06,
impulses and the retained store). -/
def Obligations.StepKeepsTimeLaws : Prop :=
  ∀ s t : State, step s = .next t →
    (s.tb.Ok → t.tb.Ok) ∧
    (∀ base : BitVec 16,
      (∀ day : BitVec 16, day = s.tb.now.day ∨ day = t.tb.now.day ∨ (∃ h, s.bs.mark = some h ∧ h.day = day) →
        (day - base).toNat < 32768) →
      s.tb.Ok → s.MarkLaw → t.MarkLaw) ∧
    ∀ k : CircuitId, (s.circuit k).Ok →
      (t.circuit k).Ok ∧
      ((t.circuit k).retained = (s.circuit k).retained ∨
        (∃ (i : Instr) (unit : Byte) (c : MgmtCell) (rest : List Instr),
          s.pending = i :: rest ∧ cellOf i = some (mgmtCell unit 10 c)) ∨
        ∃ p : Nat, (t.circuit k).config.mode.positions = some p ∧ (s.circuit k).inFlight = none ∧
          (t.circuit k).retained = { dial := ((s.circuit k).retained.dial + 1) % p,
                                     polarity := (s.circuit k).retained.polarity.opposite } ∧
          (t.circuit k).inFlight = some (t.circuit k).retained.polarity)

/-- Every step keeps the speaker feed law: a zone's gain is 0 whenever its owner is NONE, the granted zones of a slot are
exactly the zones it owns, a slot pending on a zone is in CHIME or LIVE and asks for it, and a FREE slot holds the FREE
values. With it every step keeps the slot law: no two slots are bound to one channel, the open orders of the bound slots differ
and lie between 1 and their number, the chime start is present exactly in CHIME, a slot pending on a zone is not its owner, a
pending scheduled chime has a chime end, and yielding 6 is the drill's class alone (04, owners and claims; 05, session slots
and the open order). -/
def Obligations.StepKeepsFeedLaw : Prop :=
  ∀ s t : State, s.FeedLaw → step s = .next t → t.FeedLaw ∧ (s.SlotLaw → t.SlotLaw)

/-- Every step keeps the drill laws: at most one record is OPEN, it is the newest, and there is one exactly in SOUNDING and
SILENCED; the ring holds at most 4; the drill start, the evacuation start, the chime start and the panel start are present
exactly in the states they belong to; and PANEL stands exactly while a PANEL_ALARM input stands active. Every step keeps the
seizure law: the seized set follows the drill state and the enabled zones, each of its zones is owned by DRILL at class 7, or
in yielding 6 in SILENCED, with no release, no handover and no pending claimant, but for those taken while it yields, and
DRILL owns no other zone but one it releases; the bell line owner follows the pattern player, no pattern
plays on a seized zone, and replay runs only in IDLE (03, replay and patterns; 04, drill seizure; 08). -/
def Obligations.StepKeepsDrillLaws : Prop :=
  ∀ s t : State, step s = .next t →
    (s.DrillLaw → s.PanelLaw → t.DrillLaw ∧ t.PanelLaw) ∧ (s.FeedLaw → s.SeizureLaw → t.SeizureLaw)

/-- Every step keeps the bounds of the queues: 8 entries outbound, 16 pending bells with no id twice, and 15 deferred
entries beside the marker (03, 10). -/
def Obligations.StepKeepsQueueLaw : Prop :=
  ∀ s t : State, s.QueueLaw → step s = .next t → t.QueueLaw

end
end

