-- ==== Sys2Proof/Laws/Folds.lean ====
section
/-! SUPPORT. The walks over zones, slots and circuits: what a walk keeps, and what it does to each record when one visit
touches its own record alone. -/

namespace Sys2Proof.Machine

variable {ι σ τ : Type}

/-- A walk over a list keeps what each visit keeps. -/
theorem walk_keeps (P : σ → Prop) (f : σ → ι → σ) (hf : ∀ s i, P s → P (f s i)) (l : List ι) (s : σ) (hs : P s) :
    P (l.foldl f s) := by
  induction l generalizing s with
  | nil => exact hs
  | cons i l ih => exact ih _ (hf s i hs)

/-- A walk over a list without repeats does to each visited record what one visit does, when a visit touches its own
record alone. -/
theorem walk_each [DecidableEq ι] (P : σ → Prop) (get : ι → σ → τ) (g : ι → τ → τ) (f : σ → ι → σ)
    (hP : ∀ s i, P s → P (f s i)) (own : ∀ s i, P s → get i (f s i) = g i (get i s))
    (other : ∀ s i j, P s → j ≠ i → get j (f s i) = get j s) (l : List ι) (hl : l.Nodup) (s : σ) (hs : P s) (j : ι) :
    get j (l.foldl f s) = if j ∈ l then g j (get j s) else get j s := by
  induction l generalizing s with
  | nil => simp
  | cons i l ih =>
    rw [List.nodup_cons] at hl
    rw [List.foldl_cons, ih hl.2 _ (hP s i hs)]
    by_cases h : j = i
    · subst h
      simp [hl.1, own s j hs]
    · simp [h, other s i j hs h]

/-- A walk over a zone set keeps what each visit keeps. -/
theorem forZones_keeps (P : σ → Prop) (f : Zone → σ → σ) (hf : ∀ z s, P s → P (f z s)) (zs : ZoneSet) (s : σ)
    (hs : P s) : P (forZones zs f s) := by
  refine walk_keeps P _ (fun s z h => ?_) _ s hs
  split
  · exact hf z s h
  · exact h

/-- A walk over a zone set visits each zone of the set once, and no other. -/
theorem forZones_each (P : σ → Prop) (get : Zone → σ → τ) (g : Zone → τ → τ) (f : Zone → σ → σ)
    (hP : ∀ z s, P s → P (f z s)) (own : ∀ z s, P s → get z (f z s) = g z (get z s))
    (other : ∀ y z s, P s → y ≠ z → get y (f z s) = get y s) (zs : ZoneSet) (s : σ) (hs : P s) (y : Zone) :
    get y (forZones zs f s) = if memSet y zs then g y (get y s) else get y s := by
  have h := walk_each P get (fun z t => if memSet z zs then g z t else t)
    (fun s z => if memSet z zs then f z s else s)
    (fun s z h => by split; exacts [hP z s h, h])
    (fun s z h => by split; exacts [own z s h, rfl])
    (fun s z y h ne => by split; exacts [other y z s h ne, rfl])
    (List.finRange 16) (List.nodup_finRange 16) s hs y
  simpa [forZones] using h

/-- A walk over a zone set in which no visit changes a part of the state leaves that part. -/
theorem forZones_same (get : σ → τ) (f : Zone → σ → σ) (h : ∀ z s, get (f z s) = get s) (zs : ZoneSet) (s : σ) :
    get (forZones zs f s) = get s :=
  forZones_keeps (fun t => get t = get s) f (fun z t ht => (h z t).trans ht) zs s rfl

theorem forSlots_keeps (P : σ → Prop) (f : SlotId → σ → σ) (hf : ∀ n s, P s → P (f n s)) (s : σ) (hs : P s) :
    P (forSlots f s) := walk_keeps P _ (fun s n h => hf n s h) _ s hs

/-- A walk over the slots visits each slot once. -/
theorem forSlots_each (P : σ → Prop) (get : SlotId → σ → τ) (g : SlotId → τ → τ) (f : SlotId → σ → σ)
    (hP : ∀ n s, P s → P (f n s)) (own : ∀ n s, P s → get n (f n s) = g n (get n s))
    (other : ∀ m n s, P s → m ≠ n → get m (f n s) = get m s) (s : σ) (hs : P s) (m : SlotId) :
    get m (forSlots f s) = g m (get m s) := by
  have h := walk_each P get g (fun s n => f n s) (fun s n h => hP n s h) (fun s n h => own n s h)
    (fun s n m h ne => other m n s h ne) (List.finRange 4) (List.nodup_finRange 4) s hs m
  simpa [forSlots] using h

theorem forSlots_same (get : σ → τ) (f : SlotId → σ → σ) (h : ∀ n s, get (f n s) = get s) (s : σ) :
    get (forSlots f s) = get s :=
  forSlots_keeps (fun t => get t = get s) f (fun n t ht => (h n t).trans ht) s rfl

theorem forCircuits_keeps (P : σ → Prop) (f : CircuitId → σ → σ) (hf : ∀ k s, P s → P (f k s)) (s : σ) (hs : P s) :
    P (forCircuits f s) := walk_keeps P _ (fun s k h => hf k s h) _ s hs

/-- A walk over the circuits visits each circuit once. -/
theorem forCircuits_each (P : σ → Prop) (get : CircuitId → σ → τ) (g : CircuitId → τ → τ) (f : CircuitId → σ → σ)
    (hP : ∀ k s, P s → P (f k s)) (own : ∀ k s, P s → get k (f k s) = g k (get k s))
    (other : ∀ j k s, P s → j ≠ k → get j (f k s) = get j s) (s : σ) (hs : P s) (j : CircuitId) :
    get j (forCircuits f s) = g j (get j s) := by
  have h := walk_each P get g (fun s k => f k s) (fun s k h => hP k s h) (fun s k h => own k s h)
    (fun s k j h ne => other j k s h ne) (List.finRange 4) (List.nodup_finRange 4) s hs j
  simpa [forCircuits] using h

theorem forCircuits_same (get : σ → τ) (f : CircuitId → σ → σ) (h : ∀ k s, get (f k s) = get s) (s : σ) :
    get (forCircuits f s) = get s :=
  forCircuits_keeps (fun t => get t = get s) f (fun k t ht => (h k t).trans ht) s rfl

/-- Membership of a set with one zone more. -/
theorem memSet_insertZone (y z : Zone) (zs : ZoneSet) : memSet y (insertZone z zs) = (memSet y zs || decide (y = z)) := by
  simp [memSet, insertZone, single, Fin.ext_iff]

/-- Membership of a set with one zone less. -/
theorem memSet_eraseZone (y z : Zone) (zs : ZoneSet) : memSet y (eraseZone z zs) = (memSet y zs && !decide (y = z)) := by
  simp [memSet, eraseZone, single, Fin.ext_iff]

theorem memSet_and (z : Zone) (a b : ZoneSet) : memSet z (a &&& b) = (memSet z a && memSet z b) := by simp [memSet]

theorem memSet_diffSet (z : Zone) (a b : ZoneSet) : memSet z (diffSet a b) = (memSet z a && !memSet z b) := by
  simp [memSet, diffSet]

@[simp] theorem memSet_zero (z : Zone) : memSet z 0#16 = false := by simp [memSet]

@[simp] theorem memSet_all (z : Zone) : memSet z 0xFFFF#16 = true := by revert z; decide

/-- Two sets with the same zones are equal. -/
theorem set_ext (a b : ZoneSet) (h : ∀ z : Zone, memSet z a = memSet z b) : a = b := by
  apply BitVec.eq_of_getLsbD_eq
  intro i hi
  exact h ⟨i, hi⟩

/-- Membership of a set built from a test. -/
theorem memSet_zonesWhere (p : Zone → Bool) (z : Zone) : memSet z (zonesWhere p) = p z := by
  have h := walk_each (fun _ => True) (fun y (s : ZoneSet) => memSet y s) (fun y b => p y || b)
    (fun acc y => if p y then insertZone y acc else acc) (fun _ _ _ => trivial)
    (fun s y _ => by by_cases hp : p y <;> simp [hp, memSet_insertZone])
    (fun s y x _ ne => by by_cases hp : p y <;> simp [hp, memSet_insertZone, ne])
    (List.finRange 16) (List.nodup_finRange 16) 0 trivial z
  simpa [zonesWhere] using h

end Sys2Proof.Machine
end

