-- ==== Sys2Proof/Laws/State.lean ====
section
/-! SUPPORT. Each field of the state after each of its updates, so that no proof unfolds a record update. -/

namespace Sys2Proof.Machine

variable (s : State)

/-! ### onTb -/

@[simp] theorem State.onTb_tb (g : TimeBase → TimeBase) : (s.onTb g).tb = g s.tb := rfl
@[simp] theorem State.onTb_bs (g : TimeBase → TimeBase) : (s.onTb g).bs = s.bs := rfl
@[simp] theorem State.onTb_bo (g : TimeBase → TimeBase) : (s.onTb g).bo = s.bo := rfl
@[simp] theorem State.onTb_za (g : TimeBase → TimeBase) : (s.onTb g).za = s.za := rfl
@[simp] theorem State.onTb_au (g : TimeBase → TimeBase) : (s.onTb g).au = s.au := rfl
@[simp] theorem State.onTb_cc (g : TimeBase → TimeBase) : (s.onTb g).cc = s.cc := rfl
@[simp] theorem State.onTb_dc (g : TimeBase → TimeBase) : (s.onTb g).dc = s.dc := rfl
@[simp] theorem State.onTb_ci (g : TimeBase → TimeBase) : (s.onTb g).ci = s.ci := rfl
@[simp] theorem State.onTb_li (g : TimeBase → TimeBase) : (s.onTb g).li = s.li := rfl
@[simp] theorem State.onTb_mu (g : TimeBase → TimeBase) : (s.onTb g).mu = s.mu := rfl
@[simp] theorem State.onTb_pending (g : TimeBase → TimeBase) : (s.onTb g).pending = s.pending := rfl

/-! ### onBs -/

@[simp] theorem State.onBs_tb (g : BellSequencer → BellSequencer) : (s.onBs g).tb = s.tb := rfl
@[simp] theorem State.onBs_bs (g : BellSequencer → BellSequencer) : (s.onBs g).bs = g s.bs := rfl
@[simp] theorem State.onBs_bo (g : BellSequencer → BellSequencer) : (s.onBs g).bo = s.bo := rfl
@[simp] theorem State.onBs_za (g : BellSequencer → BellSequencer) : (s.onBs g).za = s.za := rfl
@[simp] theorem State.onBs_au (g : BellSequencer → BellSequencer) : (s.onBs g).au = s.au := rfl
@[simp] theorem State.onBs_cc (g : BellSequencer → BellSequencer) : (s.onBs g).cc = s.cc := rfl
@[simp] theorem State.onBs_dc (g : BellSequencer → BellSequencer) : (s.onBs g).dc = s.dc := rfl
@[simp] theorem State.onBs_ci (g : BellSequencer → BellSequencer) : (s.onBs g).ci = s.ci := rfl
@[simp] theorem State.onBs_li (g : BellSequencer → BellSequencer) : (s.onBs g).li = s.li := rfl
@[simp] theorem State.onBs_mu (g : BellSequencer → BellSequencer) : (s.onBs g).mu = s.mu := rfl
@[simp] theorem State.onBs_pending (g : BellSequencer → BellSequencer) : (s.onBs g).pending = s.pending := rfl

/-! ### onAu -/

@[simp] theorem State.onAu_tb (g : AnnounceUnit → AnnounceUnit) : (s.onAu g).tb = s.tb := rfl
@[simp] theorem State.onAu_bs (g : AnnounceUnit → AnnounceUnit) : (s.onAu g).bs = s.bs := rfl
@[simp] theorem State.onAu_bo (g : AnnounceUnit → AnnounceUnit) : (s.onAu g).bo = s.bo := rfl
@[simp] theorem State.onAu_za (g : AnnounceUnit → AnnounceUnit) : (s.onAu g).za = s.za := rfl
@[simp] theorem State.onAu_au (g : AnnounceUnit → AnnounceUnit) : (s.onAu g).au = g s.au := rfl
@[simp] theorem State.onAu_cc (g : AnnounceUnit → AnnounceUnit) : (s.onAu g).cc = s.cc := rfl
@[simp] theorem State.onAu_dc (g : AnnounceUnit → AnnounceUnit) : (s.onAu g).dc = s.dc := rfl
@[simp] theorem State.onAu_ci (g : AnnounceUnit → AnnounceUnit) : (s.onAu g).ci = s.ci := rfl
@[simp] theorem State.onAu_li (g : AnnounceUnit → AnnounceUnit) : (s.onAu g).li = s.li := rfl
@[simp] theorem State.onAu_mu (g : AnnounceUnit → AnnounceUnit) : (s.onAu g).mu = s.mu := rfl
@[simp] theorem State.onAu_pending (g : AnnounceUnit → AnnounceUnit) : (s.onAu g).pending = s.pending := rfl

/-! ### onDc -/

@[simp] theorem State.onDc_tb (g : DrillController → DrillController) : (s.onDc g).tb = s.tb := rfl
@[simp] theorem State.onDc_bs (g : DrillController → DrillController) : (s.onDc g).bs = s.bs := rfl
@[simp] theorem State.onDc_bo (g : DrillController → DrillController) : (s.onDc g).bo = s.bo := rfl
@[simp] theorem State.onDc_za (g : DrillController → DrillController) : (s.onDc g).za = s.za := rfl
@[simp] theorem State.onDc_au (g : DrillController → DrillController) : (s.onDc g).au = s.au := rfl
@[simp] theorem State.onDc_cc (g : DrillController → DrillController) : (s.onDc g).cc = s.cc := rfl
@[simp] theorem State.onDc_dc (g : DrillController → DrillController) : (s.onDc g).dc = g s.dc := rfl
@[simp] theorem State.onDc_ci (g : DrillController → DrillController) : (s.onDc g).ci = s.ci := rfl
@[simp] theorem State.onDc_li (g : DrillController → DrillController) : (s.onDc g).li = s.li := rfl
@[simp] theorem State.onDc_mu (g : DrillController → DrillController) : (s.onDc g).mu = s.mu := rfl
@[simp] theorem State.onDc_pending (g : DrillController → DrillController) : (s.onDc g).pending = s.pending := rfl

/-! ### onLi -/

@[simp] theorem State.onLi_tb (g : LineInterface → LineInterface) : (s.onLi g).tb = s.tb := rfl
@[simp] theorem State.onLi_bs (g : LineInterface → LineInterface) : (s.onLi g).bs = s.bs := rfl
@[simp] theorem State.onLi_bo (g : LineInterface → LineInterface) : (s.onLi g).bo = s.bo := rfl
@[simp] theorem State.onLi_za (g : LineInterface → LineInterface) : (s.onLi g).za = s.za := rfl
@[simp] theorem State.onLi_au (g : LineInterface → LineInterface) : (s.onLi g).au = s.au := rfl
@[simp] theorem State.onLi_cc (g : LineInterface → LineInterface) : (s.onLi g).cc = s.cc := rfl
@[simp] theorem State.onLi_dc (g : LineInterface → LineInterface) : (s.onLi g).dc = s.dc := rfl
@[simp] theorem State.onLi_ci (g : LineInterface → LineInterface) : (s.onLi g).ci = s.ci := rfl
@[simp] theorem State.onLi_li (g : LineInterface → LineInterface) : (s.onLi g).li = g s.li := rfl
@[simp] theorem State.onLi_mu (g : LineInterface → LineInterface) : (s.onLi g).mu = s.mu := rfl
@[simp] theorem State.onLi_pending (g : LineInterface → LineInterface) : (s.onLi g).pending = s.pending := rfl

/-! ### onMu -/

@[simp] theorem State.onMu_tb (g : ManagementUnit → ManagementUnit) : (s.onMu g).tb = s.tb := rfl
@[simp] theorem State.onMu_bs (g : ManagementUnit → ManagementUnit) : (s.onMu g).bs = s.bs := rfl
@[simp] theorem State.onMu_bo (g : ManagementUnit → ManagementUnit) : (s.onMu g).bo = s.bo := rfl
@[simp] theorem State.onMu_za (g : ManagementUnit → ManagementUnit) : (s.onMu g).za = s.za := rfl
@[simp] theorem State.onMu_au (g : ManagementUnit → ManagementUnit) : (s.onMu g).au = s.au := rfl
@[simp] theorem State.onMu_cc (g : ManagementUnit → ManagementUnit) : (s.onMu g).cc = s.cc := rfl
@[simp] theorem State.onMu_dc (g : ManagementUnit → ManagementUnit) : (s.onMu g).dc = s.dc := rfl
@[simp] theorem State.onMu_ci (g : ManagementUnit → ManagementUnit) : (s.onMu g).ci = s.ci := rfl
@[simp] theorem State.onMu_li (g : ManagementUnit → ManagementUnit) : (s.onMu g).li = s.li := rfl
@[simp] theorem State.onMu_mu (g : ManagementUnit → ManagementUnit) : (s.onMu g).mu = g s.mu := rfl
@[simp] theorem State.onMu_pending (g : ManagementUnit → ManagementUnit) : (s.onMu g).pending = s.pending := rfl

/-! ### The floor -/

@[simp] theorem State.setFloor_tb (f : Floor) : (s.setFloor f).tb = s.tb := rfl
@[simp] theorem State.setFloor_bs (f : Floor) : (s.setFloor f).bs = s.bs := rfl
@[simp] theorem State.setFloor_bo (f : Floor) : (s.setFloor f).bo = f.bo := rfl
@[simp] theorem State.setFloor_za (f : Floor) : (s.setFloor f).za = f.za := rfl
@[simp] theorem State.setFloor_au (f : Floor) : (s.setFloor f).au = f.au := rfl
@[simp] theorem State.setFloor_cc (f : Floor) : (s.setFloor f).cc = s.cc := rfl
@[simp] theorem State.setFloor_dc (f : Floor) : (s.setFloor f).dc = s.dc := rfl
@[simp] theorem State.setFloor_ci (f : Floor) : (s.setFloor f).ci = s.ci := rfl
@[simp] theorem State.setFloor_li (f : Floor) : (s.setFloor f).li = s.li := rfl
@[simp] theorem State.setFloor_mu (f : Floor) : (s.setFloor f).mu = s.mu := rfl
@[simp] theorem State.setFloor_pending (f : Floor) : (s.setFloor f).pending = s.pending := rfl

@[simp] theorem State.onFloor_tb (f : Floor → Floor) : (s.onFloor f).tb = s.tb := rfl
@[simp] theorem State.onFloor_bs (f : Floor → Floor) : (s.onFloor f).bs = s.bs := rfl
@[simp] theorem State.onFloor_bo (f : Floor → Floor) : (s.onFloor f).bo = (f s.floor).bo := rfl
@[simp] theorem State.onFloor_za (f : Floor → Floor) : (s.onFloor f).za = (f s.floor).za := rfl
@[simp] theorem State.onFloor_au (f : Floor → Floor) : (s.onFloor f).au = (f s.floor).au := rfl
@[simp] theorem State.onFloor_cc (f : Floor → Floor) : (s.onFloor f).cc = s.cc := rfl
@[simp] theorem State.onFloor_dc (f : Floor → Floor) : (s.onFloor f).dc = s.dc := rfl
@[simp] theorem State.onFloor_ci (f : Floor → Floor) : (s.onFloor f).ci = s.ci := rfl
@[simp] theorem State.onFloor_li (f : Floor → Floor) : (s.onFloor f).li = s.li := rfl
@[simp] theorem State.onFloor_mu (f : Floor → Floor) : (s.onFloor f).mu = s.mu := rfl
@[simp] theorem State.onFloor_pending (f : Floor → Floor) : (s.onFloor f).pending = s.pending := rfl

@[simp] theorem State.floor_za : s.floor.za = s.za := rfl
@[simp] theorem State.floor_au : s.floor.au = s.au := rfl
@[simp] theorem State.floor_bo : s.floor.bo = s.bo := rfl
@[simp] theorem State.floor_drillGain : s.floor.drillGain = s.dc.drillGain := rfl

/-! ### Records by number -/

@[simp] theorem State.setSlot_tb (n : SlotId) (g : Slot → Slot) : (s.setSlot n g).tb = s.tb := rfl
@[simp] theorem State.setSlot_bs (n : SlotId) (g : Slot → Slot) : (s.setSlot n g).bs = s.bs := rfl
@[simp] theorem State.setSlot_bo (n : SlotId) (g : Slot → Slot) : (s.setSlot n g).bo = s.bo := rfl
@[simp] theorem State.setSlot_za (n : SlotId) (g : Slot → Slot) : (s.setSlot n g).za = s.za := rfl
@[simp] theorem State.setSlot_cc (n : SlotId) (g : Slot → Slot) : (s.setSlot n g).cc = s.cc := rfl
@[simp] theorem State.setSlot_dc (n : SlotId) (g : Slot → Slot) : (s.setSlot n g).dc = s.dc := rfl
@[simp] theorem State.setSlot_ci (n : SlotId) (g : Slot → Slot) : (s.setSlot n g).ci = s.ci := rfl
@[simp] theorem State.setSlot_li (n : SlotId) (g : Slot → Slot) : (s.setSlot n g).li = s.li := rfl
@[simp] theorem State.setSlot_mu (n : SlotId) (g : Slot → Slot) : (s.setSlot n g).mu = s.mu := rfl
@[simp] theorem State.setSlot_pending (n : SlotId) (g : Slot → Slot) : (s.setSlot n g).pending = s.pending := rfl

@[simp] theorem State.setCircuit_tb (n : CircuitId) (g : Circuit → Circuit) : (s.setCircuit n g).tb = s.tb := rfl
@[simp] theorem State.setCircuit_bs (n : CircuitId) (g : Circuit → Circuit) : (s.setCircuit n g).bs = s.bs := rfl
@[simp] theorem State.setCircuit_bo (n : CircuitId) (g : Circuit → Circuit) : (s.setCircuit n g).bo = s.bo := rfl
@[simp] theorem State.setCircuit_za (n : CircuitId) (g : Circuit → Circuit) : (s.setCircuit n g).za = s.za := rfl
@[simp] theorem State.setCircuit_au (n : CircuitId) (g : Circuit → Circuit) : (s.setCircuit n g).au = s.au := rfl
@[simp] theorem State.setCircuit_dc (n : CircuitId) (g : Circuit → Circuit) : (s.setCircuit n g).dc = s.dc := rfl
@[simp] theorem State.setCircuit_ci (n : CircuitId) (g : Circuit → Circuit) : (s.setCircuit n g).ci = s.ci := rfl
@[simp] theorem State.setCircuit_li (n : CircuitId) (g : Circuit → Circuit) : (s.setCircuit n g).li = s.li := rfl
@[simp] theorem State.setCircuit_mu (n : CircuitId) (g : Circuit → Circuit) : (s.setCircuit n g).mu = s.mu := rfl
@[simp] theorem State.setCircuit_pending (n : CircuitId) (g : Circuit → Circuit) : (s.setCircuit n g).pending = s.pending := rfl

@[simp] theorem State.setInput_tb (n : InputId) (g : Contact → Contact) : (s.setInput n g).tb = s.tb := rfl
@[simp] theorem State.setInput_bs (n : InputId) (g : Contact → Contact) : (s.setInput n g).bs = s.bs := rfl
@[simp] theorem State.setInput_bo (n : InputId) (g : Contact → Contact) : (s.setInput n g).bo = s.bo := rfl
@[simp] theorem State.setInput_za (n : InputId) (g : Contact → Contact) : (s.setInput n g).za = s.za := rfl
@[simp] theorem State.setInput_au (n : InputId) (g : Contact → Contact) : (s.setInput n g).au = s.au := rfl
@[simp] theorem State.setInput_cc (n : InputId) (g : Contact → Contact) : (s.setInput n g).cc = s.cc := rfl
@[simp] theorem State.setInput_dc (n : InputId) (g : Contact → Contact) : (s.setInput n g).dc = s.dc := rfl
@[simp] theorem State.setInput_li (n : InputId) (g : Contact → Contact) : (s.setInput n g).li = s.li := rfl
@[simp] theorem State.setInput_mu (n : InputId) (g : Contact → Contact) : (s.setInput n g).mu = s.mu := rfl
@[simp] theorem State.setInput_pending (n : InputId) (g : Contact → Contact) : (s.setInput n g).pending = s.pending := rfl

/-- The record written is the record read, and every other is left. -/
@[simp] theorem State.slot_setSlot (m n : SlotId) (g : Slot → Slot) :
    (s.setSlot n g).slot m = if m = n then g (s.slot n) else s.slot m := by
  simp only [State.slot, State.setSlot, Fin.getElem_fin, Vector.getElem_set, Fin.ext_iff, eq_comm]

@[simp] theorem State.circuit_setCircuit (m n : CircuitId) (g : Circuit → Circuit) :
    (s.setCircuit n g).circuit m = if m = n then g (s.circuit n) else s.circuit m := by
  simp only [State.circuit, State.setCircuit, Fin.getElem_fin, Vector.getElem_set, Fin.ext_iff, eq_comm]

@[simp] theorem State.input_setInput (m n : InputId) (g : Contact → Contact) :
    (s.setInput n g).input m = if m = n then g (s.input n) else s.input m := by
  simp only [State.input, State.setInput, Fin.getElem_fin, Vector.getElem_set, Fin.ext_iff, eq_comm]

/-! ### The floor's records -/

variable (f : Floor)

@[simp] theorem Floor.setZone_au (n : Zone) (g : ZoneRec → ZoneRec) : (f.setZone n g).au = f.au := rfl
@[simp] theorem Floor.setZone_bo (n : Zone) (g : ZoneRec → ZoneRec) : (f.setZone n g).bo = f.bo := rfl
@[simp] theorem Floor.setZone_drillGain (n : Zone) (g : ZoneRec → ZoneRec) : (f.setZone n g).drillGain = f.drillGain := rfl
@[simp] theorem Floor.setSlot_za (n : SlotId) (g : Slot → Slot) : (f.setSlot n g).za = f.za := rfl
@[simp] theorem Floor.setSlot_bo (n : SlotId) (g : Slot → Slot) : (f.setSlot n g).bo = f.bo := rfl
@[simp] theorem Floor.setSlot_drillGain (n : SlotId) (g : Slot → Slot) : (f.setSlot n g).drillGain = f.drillGain := rfl
@[simp] theorem Floor.setPlayer_za (z : Zone) (p : Player) : (f.setPlayer z p).za = f.za := rfl
@[simp] theorem Floor.setPlayer_au (z : Zone) (p : Player) : (f.setPlayer z p).au = f.au := rfl
@[simp] theorem Floor.setPlayer_drillGain (z : Zone) (p : Player) : (f.setPlayer z p).drillGain = f.drillGain := rfl

@[simp] theorem Floor.zone_setZone (m z : Zone) (g : ZoneRec → ZoneRec) :
    (f.setZone z g).zone m = if m = z then g (f.zone z) else f.zone m := by
  simp only [Floor.zone, Floor.setZone, Fin.getElem_fin, Vector.getElem_set, Fin.ext_iff, eq_comm]

@[simp] theorem Floor.slot_setSlot (m n : SlotId) (g : Slot → Slot) :
    (f.setSlot n g).slot m = if m = n then g (f.slot n) else f.slot m := by
  simp only [Floor.slot, Floor.setSlot, Fin.getElem_fin, Vector.getElem_set, Fin.ext_iff, eq_comm]

@[simp] theorem Floor.player_setPlayer (m z : Zone) (p : Player) :
    (f.setPlayer z p).player m = if m = z then p else f.player m := by
  simp only [Floor.player, Floor.setPlayer, Fin.getElem_fin, Vector.getElem_set, Fin.ext_iff, eq_comm]

@[simp] theorem Floor.zone_setSlot (z : Zone) (n : SlotId) (g : Slot → Slot) : (f.setSlot n g).zone z = f.zone z := rfl
@[simp] theorem Floor.zone_setPlayer (m z : Zone) (p : Player) : (f.setPlayer z p).zone m = f.zone m := rfl
@[simp] theorem Floor.slot_setZone (n : SlotId) (z : Zone) (g : ZoneRec → ZoneRec) : (f.setZone z g).slot n = f.slot n := rfl
@[simp] theorem Floor.slot_setPlayer (n : SlotId) (z : Zone) (p : Player) : (f.setPlayer z p).slot n = f.slot n := rfl
@[simp] theorem Floor.player_setZone (m z : Zone) (g : ZoneRec → ZoneRec) : (f.setZone z g).player m = f.player m := rfl
@[simp] theorem Floor.player_setSlot (z : Zone) (n : SlotId) (g : Slot → Slot) : (f.setSlot n g).player z = f.player z := rfl

end Sys2Proof.Machine
end

