-- ==== Sys2Proof/Laws/Line.lean ====
section
/-! SUPPORT. The shared operations of the line interface and the management unit's queue: what each can do, said once. -/

namespace Sys2Proof.Machine

variable (s : State)

/-! ## Posting (R167, R168) -/

/-- Posting a flag does one of four things: nothing when it stands set, the flag alone when it is masked, the flag and a
notice at the tail, or the flag and a lost notice when the queue is full. -/
theorem ManagementUnit.post_cases (mu : ManagementUnit) (flag : Fin 16) (snapshot : List Byte) :
    (memSet flag mu.flags = true ∧ mu.post flag snapshot = mu) ∨
    (memSet flag mu.flags = false ∧ memSet flag mu.mask = false ∧
      mu.post flag snapshot = { mu with flags := insertZone flag mu.flags }) ∨
    (memSet flag mu.flags = false ∧ memSet flag mu.mask = true ∧ mu.queue.length < 8 ∧
      mu.post flag snapshot = { mu with
        flags := insertZone flag mu.flags, queue := mu.queue ++ [.notice mu.station mu.group flag snapshot] }) ∨
    (memSet flag mu.flags = false ∧ memSet flag mu.mask = true ∧ 8 ≤ mu.queue.length ∧
      mu.post flag snapshot = { mu with flags := insertZone flag mu.flags, lost := satInc mu.lost }) := by
  unfold ManagementUnit.post ManagementUnit.enqueueNotice queueLimit
  by_cases h : memSet flag mu.flags = true
  · simp [h]
  · by_cases hm : memSet flag mu.mask = true
    · by_cases hq : mu.queue.length < 8
      · simp [h, hm, hq]
      · simp [h, hm, hq, Nat.le_of_not_lt hq]
    · simp [h, hm]

@[simp] theorem ManagementUnit.post_station (mu : ManagementUnit) (flag : Fin 16) (b : List Byte) :
    (mu.post flag b).station = mu.station := by
  rcases mu.post_cases flag b with h | h | h | h <;> simp [h]
@[simp] theorem ManagementUnit.post_group (mu : ManagementUnit) (flag : Fin 16) (b : List Byte) :
    (mu.post flag b).group = mu.group := by
  rcases mu.post_cases flag b with h | h | h | h <;> simp [h]
@[simp] theorem ManagementUnit.post_mask (mu : ManagementUnit) (flag : Fin 16) (b : List Byte) :
    (mu.post flag b).mask = mu.mask := by
  rcases mu.post_cases flag b with h | h | h | h <;> simp [h]
@[simp] theorem ManagementUnit.post_log (mu : ManagementUnit) (flag : Fin 16) (b : List Byte) :
    (mu.post flag b).log = mu.log := by
  rcases mu.post_cases flag b with h | h | h | h <;> simp [h]
@[simp] theorem ManagementUnit.post_cursor (mu : ManagementUnit) (flag : Fin 16) (b : List Byte) :
    (mu.post flag b).cursor = mu.cursor := by
  rcases mu.post_cases flag b with h | h | h | h <;> simp [h]
@[simp] theorem ManagementUnit.post_staged (mu : ManagementUnit) (flag : Fin 16) (b : List Byte) :
    (mu.post flag b).staged = mu.staged := by
  rcases mu.post_cases flag b with h | h | h | h <;> simp [h]

/-- Posting keeps the bound of the queue. -/
theorem ManagementUnit.post_queue_le (mu : ManagementUnit) (flag : Fin 16) (b : List Byte) (h : mu.queue.length ≤ 8) :
    (mu.post flag b).queue.length ≤ 8 := by
  rcases mu.post_cases flag b with ⟨-, e⟩ | ⟨-, -, e⟩ | ⟨-, -, hq, e⟩ | ⟨-, -, -, e⟩ <;> rw [e] <;>
    first | exact h | (simp; omega)

/-- After posting, the flag stands set. -/
theorem ManagementUnit.post_flag (mu : ManagementUnit) (flag : Fin 16) (b : List Byte) :
    memSet flag (mu.post flag b).flags = true := by
  rcases mu.post_cases flag b with ⟨h, e⟩ | ⟨-, -, e⟩ | ⟨-, -, -, e⟩ | ⟨-, -, -, e⟩ <;> rw [e] <;>
    simp_all [memSet, insertZone, single]

/-! ## Receiving (R158, R161, R162) -/

/-- While UP a good cell acts on the state with its cell counted, and goes out as it came. -/
theorem State.receive_up (c : Cell) (act : State → State) (h : s.li.sync = .up) :
    s.receive c act = (act (s.onLi LineInterface.countGood)).sendOut c := by
  simp [State.receive, h]

/-- While DOWN a cell is neither acted on nor forwarded. -/
theorem State.receive_down (c : Cell) (act : State → State) (h : s.li.sync = .down) : s.receive c act = s := by
  simp [State.receive, h]

/-- A cell that nothing acts on is counted and forwarded. -/
theorem State.receive_id (c : Cell) (h : s.li.sync = .up) : s.receive c id = State.forwards c s := by
  simp [State.receive, h, State.forwards, State.sendOut, State.onLi, LineInterface.countGood]

/-! ## Filling a slot (R163) -/

theorem State.fillSlot_nil (c : Cell) (h : s.mu.queue = []) : s.fillSlot c = s.sendOut c := by
  simp [State.fillSlot, h]

theorem State.fillSlot_cons (c : Cell) (e : Outbound) (rest : List Outbound) (h : s.mu.queue = e :: rest) :
    s.fillSlot c = { s with mu := { s.mu with queue := rest },
                            li := { s.li with sent := satInc s.li.sent, out := e.cell } } := by
  simp [State.fillSlot, h, State.onMu, State.onLi, State.sendOut]

/-- A slot filled makes no queue longer. -/
theorem State.fillSlot_queue_le (c : Cell) : (s.fillSlot c).mu.queue.length ≤ s.mu.queue.length := by
  cases h : s.mu.queue with
  | nil => simp [s.fillSlot_nil c h, h, State.sendOut]
  | cons e rest => simp [s.fillSlot_cons c e rest h]

end Sys2Proof.Machine
end

