-- ==== Sys2Proof/Laws/Bells.lean ====
section
/-! SUPPORT. Starts, cuts, deferral and ringing: what each can do, said once. -/

namespace Sys2Proof.Machine

/-! ## Starts (R48) -/

/-- A start changes no slot. -/
@[simp] theorem Floor.startOn_au (p : Fin 16) (o : Origin) (z : Zone) (f : Floor) : (f.startOn p o z).au = f.au := by
  unfold Floor.startOn; split <;> rfl

@[simp] theorem Floor.startOn_patterns (p : Fin 16) (o : Origin) (z : Zone) (f : Floor) :
    (f.startOn p o z).bo.patterns = f.bo.patterns := by
  unfold Floor.startOn; split <;> rfl

@[simp] theorem Floor.start_au (p : Fin 16) (zones : ZoneSet) (o : Origin) (f : Floor) : (f.start p zones o).au = f.au :=
  forZones_same Floor.au _ (fun z s => s.startOn_au p o z) zones f

@[simp] theorem Floor.start_patterns (p : Fin 16) (zones : ZoneSet) (o : Origin) (f : Floor) :
    (f.start p zones o).bo.patterns = f.bo.patterns :=
  forZones_same (fun f : Floor => f.bo.patterns) _ (fun z s => s.startOn_patterns p o z) zones f

/-- A start plays on each zone of its set whose bell line the drill does not hold, and touches no other zone. -/
theorem Floor.start_each (p : Fin 16) (zones : ZoneSet) (o : Origin) (f : Floor) (z : Zone) :
    ((f.start p zones o).player z, (f.start p zones o).zone z) =
      if memSet z zones = true ∧ (f.zone z).bellOwner ≠ .drill then
        (Player.begin f.bo.patterns[p] o,
          { f.zone z with
            bellOwner := if (Player.begin f.bo.patterns[p] o).phase = .done then .none else .pattern o })
      else (f.player z, f.zone z) := by
  have h := forZones_each (fun g : Floor => g.bo.patterns = f.bo.patterns) (fun z g => (g.player z, g.zone z))
    (fun _ (t : Player × ZoneRec) =>
      if t.2.bellOwner = .drill then t
      else (Player.begin f.bo.patterns[p] o,
        { t.2 with bellOwner := if (Player.begin f.bo.patterns[p] o).phase = .done then .none else .pattern o }))
    (Floor.startOn p o) (fun z g hg => by simp [hg])
    (fun z g hg => by
      by_cases hz : (g.zone z).bellOwner = .drill <;> simp [Floor.startOn, hz, hg])
    (fun y z g _ ne => by
      by_cases hz : (g.zone z).bellOwner = .drill <;> simp [Floor.startOn, hz, ne])
    zones f rfl z
  rw [Floor.start]
  refine h.trans ?_
  by_cases hm : memSet z zones = true <;> by_cases hd : (f.zone z).bellOwner = .drill <;> simp [hm, hd]

/-- A pattern started on a set of enabled zones, as the statements speak of it. -/
theorem State.soundOn_pattern_starts (s : State) (p : Fin 16) (zones : ZoneSet) (o : Origin) :
    s.StartsOn (s.soundOn (.pattern p) (zones &&& s.enabledZones) o) p zones o := by
  refine ⟨by simp [State.soundOn, State.floor], fun z => ?_⟩
  have h := Floor.start_each p (zones &&& s.enabledZones) o s.floor z
  have he : memSet z (zones &&& s.enabledZones) = (memSet z zones && (s.zone z).enabled) := by
    rw [memSet_and, State.enabledZones, memSet_zonesWhere]
  rw [he] at h
  have hp : ((s.soundOn (.pattern p) (zones &&& s.enabledZones) o).bo.players[z],
      (s.soundOn (.pattern p) (zones &&& s.enabledZones) o).zone z) =
      ((s.floor.start p (zones &&& s.enabledZones) o).player z,
        (s.floor.start p (zones &&& s.enabledZones) o).zone z) := rfl
  rw [h] at hp
  constructor
  · rintro ⟨h1, h2⟩
    constructor
    · intro h3
      rw [if_neg (fun h => h.2 h3)] at hp
      exact ⟨congrArg Prod.snd hp, congrArg Prod.fst hp⟩
    · intro h3
      rw [if_pos ⟨by simp [h1, h2], h3⟩] at hp
      exact ⟨congrArg Prod.fst hp, congrArg Prod.snd hp⟩
  · intro hn
    rw [if_neg] at hp
    · exact ⟨congrArg Prod.snd hp, congrArg Prod.fst hp⟩
    · rintro ⟨h1, -⟩
      rcases hn with hn | hn <;> simp [hn] at h1

/-! ## Sounding (R23) -/

section
variable (s : State) (sound : Sound) (zones : ZoneSet) (o : Origin)

@[simp] theorem State.soundOn_tb : (s.soundOn sound zones o).tb = s.tb := by cases sound <;> rfl
@[simp] theorem State.soundOn_bs : (s.soundOn sound zones o).bs = s.bs := by cases sound <;> rfl
@[simp] theorem State.soundOn_cc : (s.soundOn sound zones o).cc = s.cc := by cases sound <;> rfl
@[simp] theorem State.soundOn_dc : (s.soundOn sound zones o).dc = s.dc := by cases sound <;> rfl
@[simp] theorem State.soundOn_ci : (s.soundOn sound zones o).ci = s.ci := by cases sound <;> rfl
@[simp] theorem State.soundOn_li : (s.soundOn sound zones o).li = s.li := by cases sound <;> rfl
@[simp] theorem State.soundOn_mu : (s.soundOn sound zones o).mu = s.mu := by cases sound <;> rfl
@[simp] theorem State.soundOn_pending : (s.soundOn sound zones o).pending = s.pending := by cases sound <;> rfl

end

@[simp] theorem State.soundOn_pattern_au (s : State) (p : Fin 16) (zones : ZoneSet) (o : Origin) :
    (s.soundOn (.pattern p) zones o).au = s.au := Floor.start_au p zones o s.floor

/-! ## Deferral (R34, R59) -/

section
variable (s : State) (e : Deferred)

/-- A deferral reaches the queue as an entry, as the overrun marker, or not at all. -/
theorem State.defer_bs : (s.defer e).bs =
    if s.bs.marker then { s.bs with deferredLost := satInc s.bs.deferredLost }
    else { s.bs with deferred := s.bs.deferred ++ [e], marker := decide (15 ≤ s.bs.deferred.length) } := by
  unfold State.defer
  split
  · rfl
  · split
    · next h => simp [Nat.not_le.2 h, *]
    · next h => simp [State.post, Nat.le_of_not_lt h]

theorem State.defer_mu : (s.defer e).mu =
    if s.bs.marker = false ∧ 15 ≤ s.bs.deferred.length then
      s.mu.post flagDeferredOverrun ([e.origin.code, e.sound.code] ++ be16 e.zones)
    else s.mu := by
  unfold State.defer
  split
  · simp [*]
  · split
    · next h => simp [Nat.not_le.2 h]
    · next h => simp [State.post, Nat.le_of_not_lt h, *]

theorem State.defer_dc : (s.defer e).dc = s.dc.countDeferral (!s.bs.marker) := by
  unfold State.defer
  split
  · simp [*]
  · split <;> simp [State.post, *]

@[simp] theorem State.defer_tb : (s.defer e).tb = s.tb := by unfold State.defer; split <;> [rfl; split <;> rfl]
@[simp] theorem State.defer_bo : (s.defer e).bo = s.bo := by unfold State.defer; split <;> [rfl; split <;> rfl]
@[simp] theorem State.defer_za : (s.defer e).za = s.za := by unfold State.defer; split <;> [rfl; split <;> rfl]
@[simp] theorem State.defer_au : (s.defer e).au = s.au := by unfold State.defer; split <;> [rfl; split <;> rfl]
@[simp] theorem State.defer_cc : (s.defer e).cc = s.cc := by unfold State.defer; split <;> [rfl; split <;> rfl]
@[simp] theorem State.defer_ci : (s.defer e).ci = s.ci := by unfold State.defer; split <;> [rfl; split <;> rfl]
@[simp] theorem State.defer_li : (s.defer e).li = s.li := by unfold State.defer; split <;> [rfl; split <;> rfl]
@[simp] theorem State.defer_pending : (s.defer e).pending = s.pending := by
  unfold State.defer; split <;> [rfl; split <;> rfl]

end

/-! ## Ringing (R33, R53, R58) -/

section
variable (s : State) (sound : Sound) (zones : ZoneSet) (o : Origin) (due : Option Instant) (counts : BellCounts)

/-- With an empty covered part a bell starts its firing set and counts as rung. -/
theorem State.ring_clear (h : (zones &&& s.enabledZones) &&& s.dc.seized = 0) :
    s.ring sound zones o due counts =
      ((s.soundOn sound (zones &&& s.enabledZones) o).onBs counts.rung).onBs BellSequencer.heardBell := by
  simp [State.ring, h]

/-- With a covered part a bell defers it, starts the rest and counts as deferred. -/
theorem State.ring_covered (h : (zones &&& s.enabledZones) &&& s.dc.seized ≠ 0) :
    s.ring sound zones o due counts =
      (let t := ((s.defer { zones := (zones &&& s.enabledZones) &&& s.dc.seized, sound, due, origin := o }).soundOn sound
          (diffSet (zones &&& s.enabledZones) s.dc.seized) o).onBs counts.deferred
       if diffSet (zones &&& s.enabledZones) s.dc.seized = 0 then t else t.onBs BellSequencer.heardBell) := by
  unfold State.ring
  rw [if_neg h]

@[simp] theorem State.ring_tb : (s.ring sound zones o due counts).tb = s.tb := by
  simp only [State.ring]; split <;> [simp; (split <;> simp)]
@[simp] theorem State.ring_cc : (s.ring sound zones o due counts).cc = s.cc := by
  simp only [State.ring]; split <;> [simp; (split <;> simp)]
@[simp] theorem State.ring_ci : (s.ring sound zones o due counts).ci = s.ci := by
  simp only [State.ring]; split <;> [simp; (split <;> simp)]
@[simp] theorem State.ring_li : (s.ring sound zones o due counts).li = s.li := by
  simp only [State.ring]; split <;> [simp; (split <;> simp)]
@[simp] theorem State.ring_pending : (s.ring sound zones o due counts).pending = s.pending := by
  simp only [State.ring]; split <;> [simp; (split <;> simp)]

end

end Sys2Proof.Machine
end

