-- ==== Sys2Proof/Laws/Clocks.lean ====
section
/-! SUPPORT. The decisions of the clock circuits: what one does, and what a round over the four does. -/

namespace Sys2Proof.Machine

variable (s : State)

/-- A decision leaves the configuration, a running gap and a waiting reset, and while an impulse is in flight it leaves
everything (R114). -/
theorem Circuit.decide_frame (t : Option Nat) (c : Circuit) :
    (c.decide t).config = c.config ∧ (c.decide t).gap = c.gap ∧ (c.decide t).resetPending = c.resetPending ∧
      (c.config.mode.positions ≠ none → c.inFlight ≠ none → c.decide t = c) := by
  unfold Circuit.decide
  split
  · exact ⟨rfl, rfl, rfl, fun h => absurd ‹_› h⟩
  · refine ⟨?_, ?_, ?_, fun _ h => by simp [Option.isSome_iff_ne_none, h]⟩ <;>
      · split_ifs
        · rfl
        · dsimp only
          split_ifs <;> rfl

/-- A decision starts an impulse exactly when it gives ADVANCE with no impulse in flight and no gap (R115). -/
theorem Circuit.decide_quiet (positions : Nat) (t : Option Nat) (c : Circuit) (hp : c.config.mode.positions = some positions)
    (hi : c.inFlight = none) :
    c.decide t =
      (let st := decisionOf positions c.config.holdSpan c.retained.dial t
       if st = .advance ∧ c.gap = none then ({ c with state := st } : Circuit).startImpulse positions
       else { c with state := st }) := by
  simp [Circuit.decide, hp, hi]

@[simp] theorem State.decideCircuit_circuit (j k : CircuitId) :
    (s.decideCircuit k).circuit j = if j = k then (s.circuit k).decide (s.target k) else s.circuit j := by
  simp [State.decideCircuit]

@[simp] theorem State.decideCircuit_tb (k : CircuitId) : (s.decideCircuit k).tb = s.tb := rfl

/-- A target depends on the mode and the time alone, so a decision of one circuit leaves the targets. -/
@[simp] theorem State.decideCircuit_target (j k : CircuitId) : (s.decideCircuit k).target j = s.target j := by
  unfold State.target
  rw [State.decideCircuit_circuit, State.decideCircuit_tb]
  split
  · subst_vars
    rw [((s.circuit k).decide_frame (s.target k)).1]
  · rfl

/-- A round of decisions decides each circuit once, from the targets that stood before it (R114). -/
theorem State.decideAll_circuit (k : CircuitId) : s.decideAll.circuit k = (s.circuit k).decide (s.target k) := by
  have h := walk_each (fun t : State => ∀ j, t.target j = s.target j) (fun j (t : State) => t.circuit j)
    (fun j c => c.decide (s.target j)) (fun t j => t.decideCircuit j)
    (fun t j ht i => by rw [State.decideCircuit_target, ht])
    (fun t j ht => by simp [ht])
    (fun t i j _ ne => by simp [ne])
    (List.finRange 4) (List.nodup_finRange 4) s (fun _ => rfl) k
  simpa [State.decideAll, forCircuits] using h

/-- A round of decisions touches the circuits alone. -/
theorem State.decideAll_frame : { s.decideAll with cc := s.cc } = s := by
  have h := forCircuits_same (fun t : State => ({ t with cc := s.cc } : State)) State.decideCircuit (fun _ _ => rfl) s
  exact h

@[simp] theorem State.decideAll_target (k : CircuitId) : s.decideAll.target k = s.target k :=
  forCircuits_same (fun t => t.target k) State.decideCircuit (fun j t => t.decideCircuit_target k j) s

end Sys2Proof.Machine
end

