-- ==== Sys2Proof/Laws/Floor.lean ====
section
/-! SUPPORT. What each operation of the zone arbiter on one zone can change: that zone, the slots, and nothing else; and
what the shared ones leave in the zone itself. -/

namespace Sys2Proof.Machine

/-- Between two floors only zone z and the slots may differ. -/
structure Floor.OnlyZone (z : Zone) (f g : Floor) : Prop where
  zone : ∀ y : Zone, y ≠ z → g.zone y = f.zone y
  bo : g.bo = f.bo
  drillGain : g.drillGain = f.drillGain
  au : g.au = { f.au with slots := g.au.slots }

variable {z : Zone} {f g h : Floor}

theorem Floor.OnlyZone.refl (z : Zone) (f : Floor) : Floor.OnlyZone z f f := ⟨fun _ _ => rfl, rfl, rfl, rfl⟩

theorem Floor.OnlyZone.trans (a : Floor.OnlyZone z f g) (b : Floor.OnlyZone z g h) : Floor.OnlyZone z f h :=
  ⟨fun y hy => (b.zone y hy).trans (a.zone y hy), b.bo.trans a.bo, b.drillGain.trans a.drillGain, by
    rw [b.au, a.au]⟩

theorem Floor.setZone_only (z : Zone) (f : Floor) (u : ZoneRec → ZoneRec) : Floor.OnlyZone z f (f.setZone z u) :=
  ⟨fun y hy => by simp [hy], rfl, rfl, rfl⟩

theorem Floor.setSlot_only (z : Zone) (n : SlotId) (f : Floor) (u : Slot → Slot) : Floor.OnlyZone z f (f.setSlot n u) :=
  ⟨fun _ _ => rfl, rfl, rfl, rfl⟩

/-! ### Targets and ramps -/

theorem Floor.retarget_only (z : Zone) (f : Floor) : Floor.OnlyZone z f (f.retarget z) := Floor.setZone_only ..

theorem Floor.turnUp_only (z : Zone) (f : Floor) : Floor.OnlyZone z f (f.turnUp z) :=
  (Floor.setZone_only ..).trans (Floor.retarget_only ..)

/-- Aiming moves the target and the ramp alone, and a ramp that is not DOWN_FOR_HANDOVER is STEADY exactly at its
target (R73). -/
theorem ZoneRec.aim_cases (r : ZoneRec) (t : Nat) :
    r.aim t = { r with target := t, ramp := (r.aim t).ramp, rampTimer := (r.aim t).rampTimer } ∧
      (r.ramp = .down → (r.aim t).ramp = .down ∧ (r.aim t).rampTimer = r.rampTimer) ∧
      (r.ramp ≠ .down → ((r.aim t).ramp = .steady ∧ t = r.gain ∨ (r.aim t).ramp = .up ∧ t ≠ r.gain)) := by
  unfold ZoneRec.aim
  cases r.ramp <;> split_ifs <;> simp_all

/-! ### Reports to the slots -/

theorem Floor.freeSlot_only (z : Zone) (n : SlotId) (f : Floor) : Floor.OnlyZone z f (f.freeSlot n) :=
  forSlots_keeps (Floor.OnlyZone z f) _ (fun _ _ h => h.trans (Floor.setSlot_only ..)) _ (Floor.setSlot_only ..)

theorem Floor.maybeFree_only (z : Zone) (n : SlotId) (f : Floor) : Floor.OnlyZone z f (f.maybeFree n) := by
  unfold Floor.maybeFree
  split
  · exact Floor.freeSlot_only ..
  · exact Floor.OnlyZone.refl ..

theorem Floor.tellReleased_only (y z : Zone) (n : SlotId) (f : Floor) : Floor.OnlyZone y f (f.tellReleased n z) :=
  (Floor.setSlot_only ..).trans (Floor.maybeFree_only ..)

theorem Floor.tellLost_only (y z : Zone) (n : SlotId) (f : Floor) : Floor.OnlyZone y f (f.tellLost n z) :=
  Floor.setSlot_only ..

theorem Floor.tellOwnerGone_only (y z : Zone) (f : Floor) : Floor.OnlyZone y f (f.tellOwnerGone z) := by
  unfold Floor.tellOwnerGone
  split
  · split
    · exact Floor.tellReleased_only ..
    · exact Floor.tellLost_only ..
  all_goals exact Floor.OnlyZone.refl ..

/-- The telling of an owner that goes changes no zone record at all. -/
@[simp] theorem Floor.tellOwnerGone_zone (y z : Zone) (f : Floor) : (f.tellOwnerGone z).zone y = f.zone y := by
  obtain ⟨x, hx⟩ := exists_ne y
  exact (Floor.tellOwnerGone_only x z f).zone y hx.symm

/-! ### Handover and release -/

theorem Floor.grant_only (n : SlotId) (z : Zone) (f : Floor) : Floor.OnlyZone z f (f.grant n z) :=
  ((Floor.setZone_only ..).trans (Floor.setSlot_only ..)).trans (Floor.retarget_only ..)

/-- A granted zone is the slot's from gain 0, with the slot's class, aimed at the slot's target (R74, R76, R79). -/
theorem Floor.grant_zone (n : SlotId) (z : Zone) (f : Floor) (t : Nat)
    (ht : t = min (f.slot n).targetGain (f.zone z).maxGain) :
    (f.grant n z).zone z =
      { f.zone z with
        owner := .slot n, cls := .rank (f.slot n).priority, releasing := false, claimant := none, chimeEnd := none,
        chimeClaimed := none, drillSource := none, gain := 0, target := t, ramp := if t = 0 then .steady else .up,
        rampTimer := if t = 0 then 0 else 2 } := by
  subst ht
  simp only [Floor.grant, Floor.retarget, Floor.targetOf, Floor.zone_setZone, Floor.zone_setSlot, Floor.slot_setSlot,
    Floor.slot_setZone, if_true, Bool.false_eq_true, if_false, ZoneRec.aim]
  split_ifs <;> simp_all [rampPeriod]

/-- The slot a zone is granted to gains it, and no other slot changes. -/
theorem Floor.grant_slot (n m : SlotId) (z : Zone) (f : Floor) :
    (f.grant n z).slot m =
      if m = n then { f.slot n with granted := insertZone z (f.slot n).granted } else f.slot m := by
  simp [Floor.grant, Floor.retarget]

theorem Floor.grantChime_only (z : Zone) (f : Floor) : Floor.OnlyZone z f (f.grantChime z) :=
  (Floor.setZone_only ..).trans (Floor.retarget_only ..)

/-- A scheduled chime's grant touches no slot. -/
@[simp] theorem Floor.grantChime_slot (n : SlotId) (z : Zone) (f : Floor) : (f.grantChime z).slot n = f.slot n := rfl

theorem Floor.install_only (c : Claimant) (z : Zone) (f : Floor) : Floor.OnlyZone z f (f.install c z) := by
  cases c
  · exact Floor.grant_only ..
  · exact Floor.grantChime_only ..

theorem Floor.completeRelease_only (z : Zone) (f : Floor) : Floor.OnlyZone z f (f.completeRelease z) := by
  unfold Floor.completeRelease
  dsimp only
  split
  · exact (Floor.tellOwnerGone_only ..).trans (Floor.install_only ..)
  · split
    · exact (Floor.tellOwnerGone_only ..).trans (Floor.grant_only ..)
    · exact (Floor.tellOwnerGone_only ..).trans (Floor.setZone_only ..)

theorem Floor.completeHandover_only (c : Claimant) (z : Zone) (f : Floor) :
    Floor.OnlyZone z f (f.completeHandover c z) :=
  (Floor.tellOwnerGone_only ..).trans (Floor.install_only ..)

theorem Floor.release_only (z : Zone) (f : Floor) : Floor.OnlyZone z f (f.release z) := by
  unfold Floor.release
  split
  · exact Floor.OnlyZone.refl ..
  · dsimp only
    split
    · exact (Floor.setZone_only ..).trans (Floor.completeRelease_only ..)
    · exact Floor.setZone_only ..

/-- A release above gain 0 only turns the ramp down toward 0 and sets the mark; the slots are left (R79). -/
theorem Floor.release_pending (z : Zone) (f : Floor) (ho : (f.zone z).owner ≠ .none)
    (hr : (f.zone z).releasing = false) (hg : (f.zone z).gain ≠ 0) :
    f.release z = f.setZone z fun r => { r.turnDown with releasing := true, target := 0 } := by
  have hk : ∀ r : ZoneRec, r.turnDown.gain = r.gain := fun r => by unfold ZoneRec.turnDown; cases r.ramp <;> rfl
  simp [Floor.release, ho, hr, hk, hg]

theorem Floor.withdraw_only (z : Zone) (f : Floor) : Floor.OnlyZone z f (f.withdraw z) := by
  unfold Floor.withdraw
  dsimp only
  repeat' split
  all_goals first
    | exact Floor.setZone_only ..
    | exact (Floor.setZone_only ..).trans (Floor.setZone_only ..)
    | exact (Floor.setZone_only ..).trans (Floor.turnUp_only ..)

theorem Floor.takeYielded_only (n : SlotId) (z : Zone) (f : Floor) : Floor.OnlyZone z f (f.takeYielded n z) :=
  Floor.completeHandover_only ..

theorem Floor.classFell_only (z : Zone) (f : Floor) : Floor.OnlyZone z f (f.classFell z) := by
  unfold Floor.classFell
  dsimp only
  repeat' split
  all_goals first
    | exact Floor.OnlyZone.refl ..
    | exact Floor.takeYielded_only ..
    | exact Floor.setZone_only ..

theorem Floor.setClass_only (n : SlotId) (z : Zone) (f : Floor) : Floor.OnlyZone z f (f.setClass n z) := by
  unfold Floor.setClass
  dsimp only
  split
  · exact (Floor.setZone_only ..).trans (Floor.classFell_only ..)
  · exact Floor.setZone_only ..

theorem Floor.cancelRelease_only (z : Zone) (f : Floor) : Floor.OnlyZone z f (f.cancelRelease z) := by
  unfold Floor.cancelRelease
  dsimp only
  split
  · exact (Floor.setZone_only ..).trans (Floor.turnUp_only ..)
  · exact (Floor.setZone_only ..).trans (Floor.retarget_only ..)

/-! ### Claims, chimes and ramp steps -/

theorem Floor.claim_only (n : SlotId) (z : Zone) (f : Floor) : Floor.OnlyZone z f (f.claim n z) := by
  unfold Floor.claim
  dsimp only
  repeat' split
  all_goals first
    | exact Floor.OnlyZone.refl ..
    | exact Floor.setZone_only ..
    | exact Floor.grant_only ..
    | exact Floor.takeYielded_only ..
    | exact Floor.setClass_only ..
    | exact (Floor.cancelRelease_only ..).trans (Floor.setClass_only ..)

theorem Floor.chimeClaimOn_only (stop : Tick) (z : Zone) (f : Floor) : Floor.OnlyZone z f (f.chimeClaimOn stop z) := by
  unfold Floor.chimeClaimOn
  dsimp only
  repeat' split
  all_goals first
    | exact Floor.OnlyZone.refl ..
    | exact Floor.setZone_only ..
    | exact (Floor.setZone_only ..).trans (Floor.grantChime_only ..)

theorem Floor.chimeEndOn_only (now : Tick) (z : Zone) (f : Floor) : Floor.OnlyZone z f (f.chimeEndOn now z) := by
  unfold Floor.chimeEndOn
  dsimp only
  repeat' split
  all_goals first
    | exact Floor.OnlyZone.refl ..
    | exact Floor.withdraw_only ..
    | exact Floor.release_only ..

theorem Floor.rampStep_only (z : Zone) (f : Floor) : Floor.OnlyZone z f (f.rampStep z) := by
  unfold Floor.rampStep
  dsimp only
  repeat' split
  all_goals first
    | exact Floor.OnlyZone.refl ..
    | exact Floor.setZone_only ..
    | exact (Floor.setZone_only ..).trans (Floor.completeRelease_only ..)
    | exact (Floor.setZone_only ..).trans (Floor.completeHandover_only ..)

theorem Floor.applyMode_only (m : SpeakerMode) (z : Zone) (f : Floor) : Floor.OnlyZone z f (f.applyMode m z) := by
  unfold Floor.applyMode
  dsimp only
  split
  · exact ((Floor.setZone_only ..).trans (Floor.retarget_only ..)).trans (Floor.classFell_only ..)
  · exact (Floor.setZone_only ..).trans (Floor.retarget_only ..)

end Sys2Proof.Machine
end

