-- ==== Sys2Proof/Laws/Drill.lean ====
section
/-! SUPPORT. What the drill controller's shared operations do: the editing, closing and placing of records, a report to
the zone arbiter, and the hand-back. -/

namespace Sys2Proof.Machine

/-! ### Records -/

variable (dc : DrillController)

/-- The open record, when it is the newest, is edited in its place. -/
theorem DrillController.editOpen_newest (u : DrillRecord → DrillRecord) (r : DrillRecord) (rs : List DrillRecord)
    (ho : dc.openRecord = some 0) (hr : dc.ring = r :: rs) : dc.editOpen u = { dc with ring := u r :: rs } := by
  simp [DrillController.editOpen, ho, hr]

/-- With no open record an edit changes nothing. -/
theorem DrillController.editOpen_none (u : DrillRecord → DrillRecord) (ho : dc.openRecord = none) :
    dc.editOpen u = dc := by
  simp [DrillController.editOpen, ho]

/-- Closing the newest record (R145, R146, R147, R155). -/
theorem DrillController.close_newest (o : RecordOutcome) (now : Tick) (r : DrillRecord) (rs : List DrillRecord)
    (ho : dc.openRecord = some 0) (hr : dc.ring = r :: rs) :
    dc.close o now =
      { dc with openRecord := none, ring := { r with outcome := o, endElapsed := dc.elapsed now } :: rs } := by
  simp [DrillController.close, dc.editOpen_newest _ r rs ho hr]

/-- The ring never holds more than 4 records after one is placed (R149). -/
theorem DrillController.place_length (r : DrillRecord) : (dc.place r).ring.length ≤ 4 := by
  simp [DrillController.place]

/-! ### Reports -/

/-- Between two floors the counters, the pattern table and the drill gain are the same. -/
structure Floor.SameBooks (f g : Floor) : Prop where
  patterns : g.bo.patterns = f.bo.patterns
  drillGain : g.drillGain = f.drillGain
  au : g.au = { f.au with slots := g.au.slots }

variable {f g h : Floor}

theorem Floor.SameBooks.refl (f : Floor) : Floor.SameBooks f f := ⟨rfl, rfl, rfl⟩

theorem Floor.SameBooks.trans (a : Floor.SameBooks f g) (b : Floor.SameBooks g h) : Floor.SameBooks f h :=
  ⟨b.patterns.trans a.patterns, b.drillGain.trans a.drillGain, by rw [b.au, a.au]⟩

theorem Floor.OnlyZone.books {z : Zone} (a : Floor.OnlyZone z f g) : Floor.SameBooks f g :=
  ⟨by rw [a.bo], a.drillGain, a.au⟩

theorem Floor.cut_books (z : Zone) (f : Floor) : Floor.SameBooks f (f.cut z) := ⟨rfl, rfl, rfl⟩

theorem Floor.applyBellMode_books (b : BellMode) (z : Zone) (f : Floor) : Floor.SameBooks f (f.applyBellMode b z) := by
  cases b <;> exact ⟨rfl, rfl, rfl⟩

theorem Floor.seize_books (m : SpeakerMode) (b : BellMode) (z : Zone) (f : Floor) :
    Floor.SameBooks f (f.seize m b z) :=
  (((Floor.tellOwnerGone_only z z f).books.trans (Floor.cut_books ..)).trans (Floor.applyBellMode_books ..)).trans
    (Floor.applyMode_only ..).books

theorem Floor.keepSeized_books (c : Bool) (m : SpeakerMode) (b : BellMode) (z : Zone) (f : Floor) :
    Floor.SameBooks f (f.keepSeized c m b z) := by
  unfold Floor.keepSeized
  split_ifs
  · exact (Floor.applyBellMode_books ..).trans (Floor.applyMode_only ..).books
  · exact Floor.seize_books ..
  · exact Floor.applyBellMode_books ..

theorem Floor.drillRelease_only (z : Zone) (f : Floor) : Floor.OnlyZone z f (f.drillRelease z) := by
  unfold Floor.drillRelease
  dsimp only
  split_ifs
  · exact (Floor.setZone_only ..).trans (Floor.release_only ..)
  · exact Floor.setZone_only ..

/-- A report leaves the counters, the pattern table and the drill gain. -/
theorem Floor.report_books (before after : DrillState) (old new : ZoneSet) (f : Floor) :
    Floor.SameBooks f (f.report before after old new) := by
  have walk : ∀ (zs : ZoneSet) (u : Zone → Floor → Floor), (∀ z e, Floor.SameBooks e (u z e)) →
      ∀ e, Floor.SameBooks e (forZones zs u e) :=
    fun zs u hu e => forZones_keeps (Floor.SameBooks e) u (fun z _ he => he.trans (hu z _)) zs e (Floor.SameBooks.refl e)
  have h1 := walk (diffSet old new) Floor.drillRelease (fun z e => (Floor.drillRelease_only z e).books) f
  unfold Floor.report
  dsimp only
  split
  · exact h1
  · exact (h1.trans (walk _ _ (fun z e => Floor.keepSeized_books ..) _)).trans
      (walk _ _ (fun z e => Floor.seize_books ..) _)

variable (s : State)

/-- A report touches the speaker feeds, the bell lines, and the drill controller's own state and seized set. -/
theorem State.drillReport_frame (after : DrillState) (seized : ZoneSet) :
    (s.drillReport after seized).tb = s.tb ∧ (s.drillReport after seized).bs = s.bs ∧
      (s.drillReport after seized).cc = s.cc ∧ (s.drillReport after seized).ci = s.ci ∧
      (s.drillReport after seized).li = s.li ∧ (s.drillReport after seized).mu = s.mu ∧
      (s.drillReport after seized).pending = s.pending ∧
      (s.drillReport after seized).dc = { s.dc with state := after, seized } ∧
      (s.drillReport after seized).bo.patterns = s.bo.patterns :=
  ⟨rfl, rfl, rfl, rfl, rfl, rfl, rfl, rfl, (Floor.report_books ..).patterns⟩

/-- With nothing deferred the beginning of replay only stops a replay that runs (R60, R61). -/
theorem State.replayBegin_nothing (hd : s.bs.deferred = []) : s.replayBegin = s.onBs BellSequencer.stopReplay := by
  have hb : (s.onBs BellSequencer.stopReplay).bs.deferred = [] := hd
  unfold State.replayBegin
  simp only [hb, List.isEmpty_nil, if_true]

/-- The hand-back with nothing deferred: the IDLE report, the drill controller at rest, and no replay. -/
theorem State.handBack_nothing (hd : s.bs.deferred = []) :
    s.handBack = ((s.drillReport .idle 0).onDc DrillController.quiet).onBs BellSequencer.stopReplay :=
  State.replayBegin_nothing _ hd

end Sys2Proof.Machine
end

