-- ==== Sys2Proof/Laws/Requests.lean ====
section
/-! SUPPORT. A request executed here, addressed to this station or broadcast to its group: what it leaves, by what it answers
(R162, R163, R165). -/

namespace Sys2Proof.Machine

/-- A request that has acted goes: a consumed one leaves its place to the queue, a broadcast goes on as it came. -/
def State.leaves (a : Answered) (t : State) : State := if a.consumed then t.fillSlot emptyCell else t.sendOut a.cell

/-- Behind its own reply a request leaves no empty place. -/
theorem State.leaves_eq_sends (a : Answered) (t : State) (h : t.mu.queue ≠ []) : t.leaves a = t.sends a := by
  unfold State.leaves State.sends
  cases hq : t.mu.queue with
  | nil => exact absurd hq h
  | cons e rest =>
    rw [t.fillSlot_cons emptyCell e rest hq]
    rfl

/-- Whether a request is consumed, and the cell it came in, do not depend on what it answers. -/
theorem State.leaves_reply (s t : State) (unit kind : Byte) (c : MgmtCell) (code : ReplyCode) (payload : List Byte) :
    t.leaves (s.reply unit kind c code payload) = t.leaves (s.reply unit kind c .ok []) := rfl

/-- The reply of a request in the queue it was put in. -/
theorem State.asked_fillEntry (s : State) (a b : Answered) (h : a.consumed = b.consumed) :
    (s.asked a).fillEntry s.mu.queue.length b.reply = s.asked b := by
  simp [State.asked, State.fillEntry, State.onMu, h]

/-- A request with a free entry and a transaction of its own is executed. -/
theorem State.request_executes (s : State) (unit kind : Byte) (c : MgmtCell) (transaction : c.transaction ≠ 255)
    (room : s.mu.queue.length < 8) : s.request unit kind c = s.execute unit kind c := by
  rw [State.request, if_neg transaction, if_neg (by unfold queueLimit; omega)]

/-- What an execution leaves, by its refusal and its kind, over the state with its reply in the queue. -/
def State.executed (s : State) (unit kind : Byte) (c : MgmtCell) (a : Answered) : State :=
  match (s.asked a).refusal unit.toNat kind.toNat c with
  | some code => (s.asked a).fillEntry s.mu.queue.length (s.reply unit kind c code []).reply
  | none =>
    if kind = 12 then (s.asked a).stationReset
    else
      let r := (s.asked a).perform unit.toNat kind.toNat c
      r.state.fillEntry s.mu.queue.length
        (s.reply unit kind c r.code (if r.code.carries then r.payload else [])).reply

/-- An execution, over a state with the cell counted and the same management unit. -/
theorem State.execute_eq (s u : State) (unit kind : Byte) (c : MgmtCell) (a : Answered)
    (ha : a = s.reply unit kind c .ok []) (hu : u.enqueue a.reply = s.asked a) (mu : u.mu = s.mu) :
    u.execute unit kind c = s.executed unit kind c a := by
  subst ha
  have replies : ∀ code payload, u.replyTo unit kind c code payload =
      (s.reply unit kind c code (if code.carries then payload else [])).reply := by
    intro code payload
    simp only [State.replyTo, State.reply, mu]
  have empty : ∀ code, (s.reply unit kind c code (if code.carries then [] else [])).reply =
      (s.reply unit kind c code []).reply := by
    intro code
    rw [ite_self]
  unfold State.execute State.executed
  rw [replies, ite_self, hu, mu]
  dsimp only
  cases State.refusal unit.toNat kind.toNat c (s.asked (s.reply unit kind c .ok [])) <;>
    simp only [replies, empty]

/-- A request executed here is dispatched on its refusal and its kind. -/
theorem State.takeMgmt_hears (s : State) (unit kind : Byte) (c : MgmtCell) (a : Answered) (h : s.hears c)
    (ha : a = s.reply unit kind c .ok []) : s.takeMgmt unit kind c = (s.executed unit kind c a).leaves a := by
  obtain ⟨up, form, transaction, room⟩ := h
  by_cases own : s.isOwn c
  · have addressed : (s.onLi LineInterface.countGood).addressed c = true := by
      simp [State.addressed, own.2]; exact own.1
    rw [← s.execute_eq ((s.onLi LineInterface.countGood).onLi fun li => { li with consumed := satInc li.consumed })
      unit kind c a ha (by rw [ha]; simp [State.asked, State.reply, decide_eq_true own, State.enqueue, State.onMu,
        State.onLi, LineInterface.countGood]) rfl]
    simp only [State.takeMgmt, up, reduceCtorEq, if_false, addressed, if_true]
    rw [State.request_executes _ unit kind c transaction (by exact room)]
    simp only [State.leaves, ha, State.reply, decide_eq_true own, if_true]
  · have addressed : (s.onLi LineInterface.countGood).addressed c = false := by
      simp only [State.isOwn, not_and] at own
      simp only [State.addressed, State.onLi_mu]
      by_cases z : s.mu.station = 0 <;> simp_all
    have heard : (s.onLi LineInterface.countGood).broadcastHere c = true := by
      obtain ⟨d, g⟩ := form.resolve_left own
      simp [State.broadcastHere, State.inGroups, d, g]
    rw [← s.execute_eq (s.onLi LineInterface.countGood) unit kind c a ha (by rw [ha]; simp [State.asked, State.reply,
      decide_eq_false own, State.enqueue, State.onMu, State.onLi, LineInterface.countGood]) rfl]
    simp only [State.takeMgmt, up, reduceCtorEq, if_false, addressed, Bool.false_eq_true, heard, if_true]
    rw [State.request_executes _ unit kind c transaction (by exact room)]
    simp only [State.leaves, ha, State.reply, decide_eq_false own, Bool.false_eq_true, if_false]

/-- A request that answers a code and a payload and leaves a state with the queue as it was goes with that reply. -/
theorem State.takeMgmt_consumes (s t : State) (unit kind : Byte) (c : MgmtCell) (code : ReplyCode) (payload : List Byte)
    (a : Answered) (h : s.hears c) (ha : a = s.reply unit kind c .ok [])
    (refused : (s.asked a).refusal unit.toNat kind.toNat c = none) (noReset : kind ≠ 12)
    (performs : (s.asked a).perform unit.toNat kind.toNat c = { code, payload, state := t.asked a })
    (queue : t.mu.queue = s.mu.queue) :
    s.takeMgmt unit kind c = State.consumes (s.reply unit kind c code (if code.carries then payload else [])) t := by
  rw [s.takeMgmt_hears unit kind c a h ha, State.executed, refused]
  simp only [noReset, if_false, performs]
  rw [← queue, t.asked_fillEntry a _ (by rw [ha]; rfl), ha,
    ← State.leaves_reply s _ unit kind c code (if code.carries then payload else []), State.leaves_eq_sends]
  · rfl
  · simp [State.asked]

/-- A request refused before it acts goes with that refusal, and changes nothing else. -/
theorem State.takeMgmt_refused (s : State) (unit kind : Byte) (c : MgmtCell) (code : ReplyCode) (a : Answered)
    (h : s.hears c) (ha : a = s.reply unit kind c .ok [])
    (refused : (s.asked a).refusal unit.toNat kind.toNat c = some code) :
    s.takeMgmt unit kind c = State.consumes (s.reply unit kind c code []) s := by
  rw [s.takeMgmt_hears unit kind c a h ha, State.executed, refused]
  simp only []
  rw [s.asked_fillEntry a _ (by rw [ha]; rfl), ha, ← State.leaves_reply s _ unit kind c code [], State.leaves_eq_sends]
  · rfl
  · simp [State.asked]

end Sys2Proof.Machine
end

