-- ==== Sys2Proof/Laws/Time.lean ====
section
/-! SUPPORT. The tick: what its counting and its advance can do, said once; the advance of a time, and the line at a missing
start. -/

namespace Sys2Proof.Machine

variable (s : State)

/-! ## The advance of a time (R4, R5) -/

/-- An ordinary tick advances 1 ms and leaves S; a boundary tick advances 2, 0 or 1 ms by the sign of S, and S moves one
toward 0. -/
theorem TimeBase.advance_cases (tb : TimeBase) :
    (tb.phase ≠ 0 ∧ tb.advance = 1 ∧ tb.slewAfter = tb.slew) ∨
    (tb.phase = 0 ∧ 0 < tb.slew ∧ tb.advance = 2 ∧ tb.slewAfter = tb.slew - 1) ∨
    (tb.phase = 0 ∧ tb.slew < 0 ∧ tb.advance = 0 ∧ tb.slewAfter = tb.slew + 1) ∨
    (tb.phase = 0 ∧ tb.slew = 0 ∧ tb.advance = 1 ∧ tb.slewAfter = tb.slew) := by
  unfold TimeBase.advance TimeBase.slewAfter
  rcases Nat.eq_zero_or_pos tb.phase with h | h
  · rcases Int.lt_trichotomy tb.slew 0 with hs | hs | hs
    · exact .inr (.inr (.inl ⟨h, hs, by simp [h, hs, Int.not_lt.mpr hs.le], by simp [h, hs, Int.not_lt.mpr hs.le]⟩))
    · exact .inr (.inr (.inr ⟨h, hs, by simp [h, hs], by simp [h, hs]⟩))
    · exact .inr (.inl ⟨h, hs, by simp [h, hs], by simp [h, hs]⟩)
  · exact .inl ⟨h.ne', by simp [h.ne'], by simp [h.ne']⟩

/-- A time n ms on stays in its day or carries into the next. -/
theorem CampusTime.plus_cases (t : CampusTime) (n : Nat) :
    (t.ms + n < dayMs ∧ t.plus n = { t with ms := t.ms + n }) ∨
    (dayMs ≤ t.ms + n ∧ t.plus n = { day := t.day + 1, weekday := t.weekday + 1, ms := t.ms + n - dayMs }) := by
  unfold CampusTime.plus
  split
  · exact .inr ⟨‹_›, rfl⟩
  · exact .inl ⟨Nat.lt_of_not_le ‹_›, rfl⟩

/-! ## The two parts of a tick (log 4) -/

@[simp] theorem State.tickAdvance_idle (h : s.tb.advanceDue = false) : s.tickAdvance = s := by
  simp [State.tickAdvance, h]

theorem State.tickAdvance_due (h : s.tb.advanceDue = true) :
    s.tickAdvance = (s.onTb fun tb => { tb with advanceDue := false }).advanceTime := by
  simp [State.tickAdvance, h]

/-- With no time set the advance changes nothing (R4). -/
@[simp] theorem State.advanceTime_unset (h : s.tb.state = .unset) : s.advanceTime = s := by
  simp [State.advanceTime, h]

section
variable (contacts : BitVec 8) (h : s.tb.advanceDue = false)
include h

/-- With no advance owed, the counting of a tick counts the time base on and owes the advance (R3). -/
theorem State.tickCount_tb : (s.tickCount contacts).tb = { s.tb.counted with advanceDue := true } := by
  simp [State.tickCount, h, State.countIntervals]

theorem State.tickCount_ci : (s.tickCount contacts).ci = s.ci.sampled contacts := by
  simp [State.tickCount, h, State.countIntervals]

theorem State.tickCount_bs : (s.tickCount contacts).bs = { s.bs with spacing := s.bs.spacing - 1 } := by
  simp [State.tickCount, h, State.countIntervals]

theorem State.tickCount_dc : (s.tickCount contacts).dc = s.dc := by simp [State.tickCount, h, State.countIntervals]
theorem State.tickCount_mu : (s.tickCount contacts).mu = s.mu := by simp [State.tickCount, h, State.countIntervals]
theorem State.tickCount_pending : (s.tickCount contacts).pending = s.pending := by
  simp [State.tickCount, h, State.countIntervals]

end

/-! ## The line at a missing start (R158) -/

/-- A missing start does one of three things: the good cells back to 0 while DOWN, one count and an EMPTY cell, or the line
DOWN. -/
theorem State.missedStart_cases :
    (s.li.sync = .down ∧ s.missedStart = { s with li := { s.li with good := 0 } }) ∨
    (s.li.sync = .up ∧ s.li.missing < 3 ∧
      s.missedStart = { s with li := { s.li with missing := s.li.missing + 1, out := emptyCell } }) ∨
    (s.li.sync = .up ∧ 3 ≤ s.li.missing ∧ s.missedStart.li.sync = .down ∧ s.missedStart.li.good = 0) := by
  unfold State.missedStart
  rcases hs : s.li.sync with _ | _
  · by_cases hm : s.li.missing + 1 < 4
    · exact .inr (.inl ⟨rfl, by omega, by simp [hm]; rfl⟩)
    · exact .inr (.inr ⟨rfl, by omega, by simp [hm, State.post], by simp [hm, State.post]⟩)
  · exact .inl ⟨rfl, by simp; rfl⟩

end Sys2Proof.Machine
end

