-- ==== Sys2Proof/Tests/Slice0.lean ====
section
/-! SUPPORT. Tests: what the well-formedness checks refuse, single steps against the spec's worked examples, and for each
statement with hypotheses a state and operands that meet them. -/

namespace Sys2Proof.Tests

open Sys2Proof.Machine

/-! ## Helpers -/

/-- The state after a command. -/
def after (i : Instr) (s : State) : State :=
  match exec i s with
  | .next t => t
  | .fault _ => s
  | .refused _ => s

/-- A MGMT cell to station 5 with a payload. -/
def mgmt (length : Byte) (payload : List Byte) : MgmtCell :=
  { destination := 5, groups := 1, transaction := 17, length, payload := Vector.ofFn fun i => payload.getD i.val 0 }

/-- Station 5 in group 0, UP, in UNSET, with the RESTART notice queued. -/
def up : State :=
  { State.reset with
    li := { State.reset.li with sync := .up },
    mu := { State.reset.mu with station := 5 } }

/-- The same LOCKED at a day, weekday and ms, with a slew remainder and a boundary phase. -/
def locked (day : BitVec 16) (weekday : Fin 7) (ms : Nat) (slew : Int) (phase : Nat) : State :=
  { up with
    tb := { up.tb with state := .locked, now := { day, weekday, ms }, slew, phase },
    bs := { up.bs with selection := .noBells, source := .dayMap, mark := some { day, ms } } }

/-- Wednesday, day 200, 08:14:59.990. -/
def morning : State := locked 200 2 29699990 0 37

def beacon (step : Bool) (day : BitVec 16) (weekday : Byte) (ms : BitVec 32) : BeaconCell :=
  { stepFlag := step, day, weekday, ms }

def bell (id pattern : Byte) (day : BitVec 16) (ms : BitVec 32) (zones : ZoneSet) : BellCell :=
  { id, groups := 1, pattern, dueDay := day, dueMs := ms, zones }

def session (channel : Byte) (priority : BitVec 3) (chime : Bool) (gain : Byte) (zones : ZoneSet) : SessionCell :=
  { channel, groups := 1, priority, chime, gain, zones }

def drill (zones : ZoneSet) : DrillCell := { zonesGiven := true, groups := 1, number := 7, zones }

def audio (channel : BitVec 4) (sequence : Byte) : AudioCell :=
  { channel, sequence, samples := Vector.replicate 16 1 }

/-- A LIVE slot on channel 2 with priority 4. -/
def live : Slot :=
  { Slot.free with state := .live, channel := some 2, priority := 4, requested := 1, targetGain := 70, openOrder := 1 }

def tone : Samples := Vector.replicate 16 7

def record : DrillRecord := newDrillRecord .line 7 (some { day := 200, ms := 0 })

/-- A drill that sounds on zones 0 to 3, begun 500 ms ago. -/
def sounding : State :=
  { morning with
    dc := { morning.dc with
      state := .sounding, named := 15, seized := 15, drillStart := some 0xFFFFFE0C, evacStart := some 0xFFFFFE0C,
      evacSignal := true, openRecord := some 0, ring := [record] } }

/-- The chime of the all-clear, begun a number of ms ago. -/
def clearing (ms : Tick) : State :=
  { morning with
    dc := { morning.dc with
      state := .clearing, named := 15, seized := 15, drillStart := some 0, chimeStart := some (0 - ms),
      ring := [{ record with outcome := .cleared }] } }

/-- The same drill with its zones held, as the seizure leaves them. -/
def gripped : State :=
  let r : ZoneRec := { ZoneRec.initial with
    owner := .drill, cls := .rank 7, gain := 40, target := 90, ramp := .up, drillSource := some .evac, bellOwner := .drill }
  (((sounding.withZone 0 r).withZone 1 r).withZone 2 r).withZone 3 r

/-- A contact whose pin has shown the other level for 20 ms. -/
def contact (function : InputFunction) (pin : Bool) : Contact :=
  { Contact.initial with function, level := !pin, pin, timer := 20 }

/-! ## Well-formedness -/

theorem test_open_channel_ill : (Instr.sessionOpen (session 8 3 false 0 0)).wellFormed = false := by decide
theorem test_close_channel_ill : (Instr.sessionClose (session 8 3 false 0 0)).wellFormed = false := by decide
theorem test_sessionMalformed_ill : (Instr.sessionMalformed 1 (session 7 3 false 0 0)).wellFormed = false := by decide
theorem test_drillMalformed_ill : (Instr.drillMalformed 5 (drill 0)).wellFormed = false := by decide
theorem test_unknownKind_ill : (Instr.unknownKindCell 8 ⟨0, Vector.replicate 37 0⟩).wellFormed = false := by decide
set_option maxRecDepth 20000 in
theorem test_damaged_ill : (Instr.damagedCell emptyCell).wellFormed = false := by decide
theorem test_padding_ill : (Instr.echo 0 (mgmt 1 [1, 2])).wellFormed = false := by decide
theorem test_destination_ill : (Instr.echo 0 { mgmt 0 [] with destination := 64 }).wellFormed = false := by decide
theorem test_unknownRequest_ill : (Instr.unknownRequestKind 0 12 (mgmt 0 [])).wellFormed = false := by decide
theorem test_unitReset_unit_ill : (Instr.unknownRequestKind 7 11 (mgmt 0 [])).wellFormed = false := by decide
theorem test_wellFormed : (Instr.unknownRequestKind 8 11 (mgmt 2 [1, 2])).wellFormed = true := by decide

/-! ## Cells -/

set_option maxRecDepth 20000 in
/-- The check over "123456789" (R159). -/
theorem test_check : crc16 [0x31, 0x32, 0x33, 0x34, 0x35, 0x36, 0x37, 0x38, 0x39] = 0x29B1 := by decide

/-- A BEACON cell with the STEP flag for day 200, Wednesday, 08:15:00.012, laid out by the Formats section. -/
theorem test_beacon_layout :
    (beaconCell (beacon true 200 2 29700012)).body.toList.take 9 = [0x11, 0, 200, 2, 0x01, 0xC5, 0x2F, 0xAC, 0] := by
  decide

/-- An EMPTY cell is kind 0, every byte 0. -/
theorem test_empty_layout : emptyCell.body.toList = List.replicate 38 0 := by decide

set_option maxRecDepth 20000 in
theorem test_empty_reads : readCell emptyCell = .emptyCell ⟨0, Vector.replicate 37 0⟩ := by decide

/-- No row of the opcode table gives bits, so no word spells a command (log 2). -/
theorem test_no_word : decodeTableWord 16 0 = none := rfl

/-! ## The worked examples of the spec, one step each -/

/-- 01, slew with delay compensation: S becomes 24 and the record stands. -/
theorem test_slew :
    let t := after (.beacon (beacon false 200 2 29700012)) { morning with tb := { morning.tb with delayComp := 1740 } }
    t.tb.slew = 24 ∧ t.tb.now.ms = 29699990 := by decide

/-- 01, forward step: the record is 10:31:15.000 and the kept step amount +75,000. -/
theorem test_step :
    let s := locked 200 2 37800000 0 3
    let t := after (.beacon (beacon false 200 2 37874998)) { s with tb := { s.tb with delayComp := 1740 } }
    t.tb.now = { day := 200, weekday := 2, ms := 37875000 } ∧ t.tb.keptStep = 75000 := by decide

/-- 01, slew across midnight: the boundary tick adds 2 ms and carries. -/
theorem test_midnight :
    let t := after (.tick (.whole 0xFF)) (locked 412 4 86399999 3 99)
    t.tb.now = { day := 413, weekday := 5, ms := 1 } ∧ t.tb.slew = 2 := by decide

/-- 01, compensation carrying past day 65535. -/
theorem test_compensation :
    ({ morning.tb with delayComp := 25400 } : TimeBase).masterTime (beacon false 65535 6 86399980) =
      { day := 0, weekday := 0, ms := 5 } := by decide

/-- 05, the sine of a tone in sixths of half a turn: the peak of 12,000 at a quarter turn, half of it at a twelfth (R106);
the values of sin x that mathematics gives, rounded down or up. -/
theorem test_sine :
    let level (twelfths : Nat) : Int := tonePeak * sineAt (twelfths * (turnUnits / 12)) / fixedOne
    level 0 = 0 ∧ level 1 ∈ [5999, 6000] ∧ level 2 = 10392 ∧ level 3 ∈ [11999, 12000] ∧ level 6 ∈ [-1, 0] ∧
      level 7 ∈ [-6001, -6000] ∧ level 9 ∈ [-12001, -12000] := by decide

/-- 03, one pattern: period 350 ms, on 175 ms, duration 4100 ms. -/
theorem test_pattern :
    let p : Pattern := { lead := 2000, a := 3, b := 1, strokes := 6 }
    p.period = 350 ∧ p.onTime = 175 ∧ p.duration = 4100 := by decide

/-- 03, the pending bell list: a booking behind one of its own due instant, before a later one. -/
theorem test_booking :
    let at_ (id : Byte) (ms : Nat) : PendingBell := ⟨id, 0, 0, ⟨201, ms⟩⟩
    (insertPending (at_ 41 36300000) [at_ 42 36300000, at_ 40 36900000]).map PendingBell.id = [42, 41, 40] := by decide

/-- 04, a scheduled chime through a live announcement: class 3 above 2 begins a handover. -/
theorem test_chime_claim :
    let r := { ZoneRec.initial with owner := .slot 1, cls := .rank 2, gain := 64, target := 64 }
    let f := (morning.withZone 5 r).floor.chimeClaim 0 0x0020
    (f.zone 5).claimant = some .chime ∧ (f.zone 5).ramp = .down ∧ (f.zone 5).chimeEnd = some 1000 := by decide

/-- 05, one session: an OPEN with a chime takes slot 0 and its zones at once. -/
theorem test_open :
    let t := after (.sessionOpen (session 2 4 true 70 0x000F)) morning
    (t.slot 0).state = .chime ∧ (t.slot 0).granted = 0x000F := by decide

/-- 06, catch-up after an outage: at 09:47 a dial at 490 is 97 behind. -/
theorem test_catch_up : decisionOf 720 45 490 (some 587) = .advance := by decide

/-- 06, holding a dial that is ahead: 20 positions are within a hold window of 45 minutes and beyond one of 15. -/
theorem test_hold : decisionOf 720 45 620 (some 600) = .hold ∧ decisionOf 720 15 620 (some 600) = .advance := by decide

/-- 06, a half-minute chain with a hold window of 0. -/
theorem test_half : decisionOf 1440 0 252 (some 251) = .advance ∧ targetAt .half ⟨0, 0, 50740000⟩ = 251 := by decide

/-- 10, loading a pattern: the second part commits a 2000 ms lead ring, a = 3, b = 1 and 6 strokes. -/
theorem test_pattern_commit :
    let part : Part := Vector.ofFn fun i => [20, 3, 1].getD i.val 0
    let s := { up with mu := { up.mu with cursor := ⟨.pattern, 4, 1⟩, staged := [part] } }
    let t := after (.writePart 0 (mgmt 1 [6])) s
    t.bo.patterns[(4 : Fin 16)] = { lead := 2000, a := 3, b := 1, strokes := 6 } ∧ t.mu.cursor = ⟨.pattern, 5, 0⟩ := by
  decide

/-! ## Hypotheses that hold somewhere: time -/

theorem witness_StartUpTakesPowerOnValues :
    (Instr.powerOn 63 = .powerOn 63 ∧ RestartCause.powerOn = .powerOn ∨
      Instr.powerOn 63 = .resetPin 63 ∧ RestartCause.powerOn = .resetPin) ∧
    (Instr.resetPin 5 = .powerOn 5 ∧ RestartCause.resetPin = .powerOn ∨
      Instr.resetPin 5 = .resetPin 5 ∧ RestartCause.resetPin = .resetPin) := by decide

/-- The same with a tick's advance still owed. -/
def owing (s : State) : State := { s with tb := { s.tb with advanceDue := true } }

/-- UNSET; an ordinary tick at the last ms; boundary ticks with S above, below and at 0, at the last two ms. -/
theorem witness_TickAdvancesLocalTime :
    up.tb.advanceDue = false ∧ (exec (.tick (.count 0xFF)) up = .next (after (.tick (.count 0xFF)) up)) ∧
    ((owing up).tb.advanceDue = true ∧ (owing up).tb.state = .unset ∧
      exec (.tick .advance) (owing up) = .next (after (.tick .advance) (owing up))) ∧
    (∀ s ∈ [locked 412 4 86399999 3 37, locked 412 4 86399998 3 0, locked 412 4 86399999 (-3) 0,
        locked 412 4 86399998 0 0].map owing,
      s.tb.advanceDue = true ∧ s.tb.state ≠ .unset) ∧
    86400000 ≤ (locked 412 4 86399999 3 37).tb.now.ms + 1 ∧ 86400000 ≤ (locked 412 4 86399998 3 0).tb.now.ms + 2 ∧
    (locked 412 4 86399999 (-3) 0).tb.now.ms + 0 < 86400000 := 
  ⟨rfl, rfl, ⟨rfl, rfl, rfl⟩, by decide, by decide⟩

theorem witness_TickCountsIntervalsWhileUnset : up.tb.advanceDue = false ∧ up.tb.state = .unset := by decide

/-- One ms before the time of slot 7 of the plan in force, with the tick's advance owed. -/
def beforeEvent (e : PlanEvent) : State :=
  { owing morning with
    tb := { (owing morning).tb with now := { day := 200, weekday := 2, ms := 29699999 } },
    bs := { morning.bs with
      plans := morning.bs.plans.set 3 ((Vector.replicate 48 PlanEvent.empty).set 7 e),
      selection := .plan 3, mark := some { day := 200, ms := 29699999 } } }

/-- A BELL at 08:15. -/
def quarterPast : PlanEvent := { PlanEvent.empty with valid := true, time := 29700, zones := 1 }

/-- A BELL and a MARK that fire, a pending bell that rings, and midnight with a plan for the new day. -/
theorem witness_TickCrossesPlanEvents :
    let crossed (x : Instant) : Bool := x.within ⟨200, 29699999⟩ ⟨200, 29700000⟩
    let mark := beforeEvent { quarterPast with action := .mark }
    let s := beforeEvent quarterPast
    let t := after (.tick .advance) s
    let p : PendingBell := ⟨40, 1, 0, ⟨200, 29700000⟩⟩
    let listed := { beforeEvent PlanEvent.empty with bs := { (beforeEvent PlanEvent.empty).bs with pendingBells := [p] } }
    let night : State := owing (locked 412 4 86399999 0 37)
    (∀ x ∈ [s, mark, listed], x.tb.advanceDue = true ∧ x.tb.state ≠ .unset ∧ x.bs.mark = some ⟨200, 29699999⟩ ∧
      x.tb.now.ms < 86400000 ∧ (after (.tick .advance) x).tb.now = ⟨200, 2, 29700000⟩ ∧ x.dc.seized = 0 ∧
      (after (.tick .advance) x).bs.selection = .plan 3) ∧
    (∀ x ∈ [s, mark], (x.bs.plans[(3 : Fin 8)][(7 : Fin 48)]).valid = true ∧
      crossed ((x.bs.plans[(3 : Fin 8)][(7 : Fin 48)]).instant 200) = true ∧
      x.bs.countEvents (.plan 3) 200 crossed = 1 ∧ x.bs.pendingBells.head? = none) ∧
    quarterPast.sound = some (.pattern 0) ∧ { quarterPast with action := .mark }.sound = none ∧ t.bs.planFired = 1 ∧
    p.due.later ⟨200, 29700000⟩ = false ∧ listed.bs.pendingBells = [p] ++ [] ∧
    listed.bs.countEvents (.plan 3) 200 crossed = 0 ∧
    (night.tb.advanceDue = true ∧ night.bs.mark = some ⟨412, 86399999⟩ ∧
      (after (.tick .advance) night).tb.now = ⟨413, 5, 0⟩) := by decide

/-- Two BELL events of one time, of slots 3 and 7, one on zones 0 and 1 and one on zone 0. -/
theorem witness_TickCrossesPlanEvents_pair :
    let crossed (x : Instant) : Bool := x.within ⟨200, 29699999⟩ ⟨200, 29700000⟩
    let s := beforeEvent quarterPast
    let two : State := { s with
      bs := { s.bs with
        plans := s.bs.plans.set 3 ((s.bs.plans[(3 : Fin 8)]).set 3 { quarterPast with zones := 3, pattern := 9 }) } }
    two.tb.advanceDue = true ∧ two.bs.mark = some ⟨200, 29699999⟩ ∧ (3 : Fin 48) < 7 ∧ two.bs.selection = .plan 3 ∧
      (after (.tick .advance) two).bs.selection = .plan 3 ∧ two.bs.countEvents (.plan 3) 200 crossed = 2 ∧
      (∀ j ∈ [(3 : Fin 48), 7], (two.bs.plans[(3 : Fin 8)][j]).valid = true ∧
        crossed ((two.bs.plans[(3 : Fin 8)][j]).instant 200) = true) ∧
      (two.bs.plans[(3 : Fin 8)][(3 : Fin 48)]).sound = some (.pattern 9) ∧
      (two.bs.plans[(3 : Fin 8)][(7 : Fin 48)]).sound = some (.pattern 0) ∧ two.bs.pendingBells.head? = none ∧
      two.dc.seized = 0 := by decide

theorem witness_BeaconCompensation :
    (beacon false 65535 6 86399999).ms.toNat < 86400000 ∧ (beacon false 65535 6 86399999).weekday.toNat ≤ 6 ∧
      { morning.tb with delayComp := 65535 }.delayComp ≤ 65535 ∧
      86400000 ≤ (beacon false 65535 6 86399999).ms.toNat + (65535 + 500) / 1000 ∧
      (beacon false 65535 6 86399933).ms.toNat + (65535 + 500) / 1000 < 86400000 := by decide

theorem witness_MalformedCellsOnlyCount :
    up.li.sync = .up ∧ 86400000 ≤ (beacon false 1 0 86400000).ms.toNat ∧ 6 < (beacon false 1 7 0).weekday.toNat ∧
      up.takes (session 8 3 false 0 0).groups ∧ 7 < (session 8 3 false 0 0).channel.toNat ∧
      ((3 : BitVec 4) ≠ 1 ∧ (3 : BitVec 4) ≠ 2) ∧ up.takes (drill 0).groups ∧ 5 < (6 : BitVec 4).toNat ∧
      up.takes (bell 1 16 0 0 1).groups ∧ 15 < (bell 1 16 0 0 1).pattern.toNat ∧
      memSet up.mu.group { bell 1 0 0 0 1 with groups := 2 }.groups = false ∧
      memSet up.mu.group { session 1 0 false 0 1 with groups := 2 }.groups = false ∧
      memSet up.mu.group { drill 1 with groups := 2 }.groups = false := by decide

/-- A due ms at and just below the end of the day; due 24 h on, and one ms beyond, with time set and in UNSET. -/
theorem witness_MalformedCellsOnlyCount_again :
    let limit : Instant := { day := morning.tb.now.day + 1, ms := morning.tb.now.ms }
    let due (c : BellCell) : Instant := { day := c.dueDay, ms := c.dueMs.toNat }
    up.takes (bell 1 15 200 86400000 1).groups ∧ 86400000 ≤ (bell 1 15 200 86400000 1).dueMs.toNat ∧
      (bell 1 15 200 86399999 1).dueMs.toNat < 86400000 ∧ morning.takes (bell 1 15 201 29699991 1).groups ∧
      morning.tb.state ≠ .unset ∧ up.tb.state = .unset ∧
      (due (bell 1 15 201 29699991 1)).later limit = true ∧ (due (bell 1 15 201 29699990 1)).later limit = false := by
  decide

theorem witness_FirstBeaconSetsTime :
    up.li.sync = .up ∧ up.tb.state = .unset ∧ (beacon true 200 6 86399999).ms.toNat < 86400000 ∧
      (beacon true 200 6 86399999).weekday.toNat ≤ 6 := by decide

/-- The STEP flag with e = 0, an error just above the step threshold, and a backward one; a forward step over a BELL and a
MARK, on and beyond the grace, and over a pending bell on the grace. -/
theorem witness_BeaconStepsTime :
    let error (s : State) (c : BeaconCell) : Int := ((s.tb.masterTime c).day - s.tb.now.day).toInt * 86400000 +
      (((s.tb.masterTime c).ms : Int) - (s.tb.now.ms : Int))
    let s := beforeEvent quarterPast
    let on := beacon false 200 2 29760000
    let beyond := beacon false 200 2 29760001
    let a : Instant := ⟨200, 29699999⟩
    let p : PendingBell := ⟨40, 1, 0, ⟨200, 29700000⟩⟩
    let listed := { beforeEvent PlanEvent.empty with bs := { (beforeEvent PlanEvent.empty).bs with pendingBells := [p] } }
    morning.li.sync = .up ∧ morning.tb.state ≠ .unset ∧
    (∀ c ∈ [beacon true 200 2 29699990, beacon false 200 2 29701991, beacon false 199 1 29699990],
      c.ms.toNat < 86400000 ∧ c.weekday.toNat ≤ 6 ∧
        (c.stepFlag = true ∨ (morning.tb.stepThreshold : Int) < |error morning c|)) ∧
    error morning (beacon false 199 1 29699990) ≤ 0 ∧
    (s.li.sync = .up ∧ s.tb.state ≠ .unset ∧ s.bs.mark = some a ∧ s.dc.seized = 0 ∧
      (∀ c ∈ [on, beyond], 0 < error s c ∧ (s.tb.stepThreshold : Int) < |error s c| ∧
        (after (.beacon c) s).bs.selection = .plan 3) ∧
      s.bs.countEvents (.plan 3) 200 (stepFires a ⟨200, 29760000⟩ a 60000) = 1 ∧
      stepFires a ⟨200, 29760000⟩ a 60000 (quarterPast.instant 200) = true ∧
      s.bs.countEvents (.plan 3) 200 (stepSkips a ⟨200, 29760000⟩ a 60000) = 0 ∧
      stepSkips a ⟨200, 29760001⟩ a 60000 (quarterPast.instant 200) = true ∧
      (∀ i : Fin 48, (s.bs.plans[(3 : Fin 8)][i]).valid = true → i = 7)) ∧
    listed.bs.pendingBells = [p] ++ [] ∧ p.due.later ⟨200, 29760000⟩ = false ∧
      (Instant.mk 200 29760000).since p.due ≤ (listed.bs.lateGrace : Int) * 1000 := by decide

/-- An error at the step threshold, in LOCKED and in HOLDOVER. -/
theorem witness_BeaconSlewsTime :
    let c := beacon false 200 2 29701990
    let hold : State := { morning with tb := { morning.tb with state := .holdover } }
    morning.li.sync = .up ∧ morning.tb.state = .locked ∧ hold.tb.state = .holdover ∧ c.ms.toNat < 86400000 ∧
      c.weekday.toNat ≤ 6 ∧ c.stepFlag = false ∧
      |((morning.tb.masterTime c).day - morning.tb.now.day).toInt * 86400000 +
        (((morning.tb.masterTime c).ms : Int) - (morning.tb.now.ms : Int))| = 2000 := by decide

theorem witness_LossTimerEntersHoldover :
    let lost (n : Nat) : State := { morning with tb := { morning.tb with lossTimer := n } }
    (lost 10000).tb.state = .locked ∧ (lost 10000).tb.lossLimit * 1000 ≤ (lost 10000).tb.lossTimer ∧
      (lost 9999).tb.lossTimer < (lost 9999).tb.lossLimit * 1000 := by decide

theorem witness_PlanSelectionFollowsLists :
    let bs := { morning.bs with exceptions := morning.bs.exceptions.set 4 { valid := true, day := 200, plan := some 2 } }
    (bs.exceptions[(4 : Fin 32)]).valid = true ∧ (bs.exceptions[(4 : Fin 32)]).day = 200 ∧
      (∀ i : Fin 32, i < 4 → (bs.exceptions[i]).valid = true → (bs.exceptions[i]).day ≠ 200) ∧
      (∀ i : Fin 32, (bs.exceptions[i]).valid = true → (bs.exceptions[i]).day ≠ 201) := by decide

/-! ## Hypotheses that hold somewhere: bells -/

/-- Two bookings wait. -/
def booked : State :=
  { morning with
    bs := { morning.bs with pendingBells := [⟨40, 1, 0, ⟨200, 36300000⟩⟩, ⟨41, 1, 0, ⟨200, 36900000⟩⟩] } }

theorem witness_BellCancelRemovesBooking :
    booked.takes (bell 41 0 0 0 0).groups ∧ (∃ p ∈ booked.bs.pendingBells, p.id = (bell 41 0 0 0 0).id) ∧
      (∀ p ∈ booked.bs.pendingBells, p.id ≠ (bell 42 0 0 0 0).id) := by decide

theorem witness_ImmediateBellRings :
    let c := bell 40 15 0 0 0x00F0
    sounding.takes c.groups ∧ c.pattern.toNat ≤ 15 ∧ (c.zones &&& sounding.enabledZones) &&& sounding.dc.seized = 0 ∧
      (bell 40 15 0 0 0 |>.zones) &&& sounding.enabledZones = 0 := by decide

/-- Free positions, the sixteenth position, and a marker that stands; a drill, and a panel episode. -/
def deferring (n : Nat) (marker : Bool) : State :=
  { sounding with
    bs := { sounding.bs with deferred := List.replicate n ⟨1, .chime, none, .plan⟩, marker } }

theorem witness_CoveredBellIsDeferred :
    let c := bell 40 15 0 0 0x00FF
    (∀ s ∈ [deferring 14 false, deferring 15 false, deferring 16 true],
      s.takes c.groups ∧ (0x000F : ZoneSet) = (c.zones &&& s.enabledZones) &&& s.dc.seized ∧ s.dc.state ≠ .panel ∧
        s.dc.openRecord = some 0 ∧ s.dc.ring = record :: []) ∧
    { (deferring 15 false).dc with state := DrillState.panel, openRecord := none }.state = .panel ∧
      c.pattern.toNat ≤ 15 := by decide

/-- A list with room, and a full one; due just after now and exactly 24 h on. -/
theorem witness_BookingIsListedInDueOrder :
    let full : State := { morning with
      bs := { morning.bs with pendingBells := (List.range 16).map fun n => ⟨BitVec.ofNat 8 n, 1, 0, ⟨200, 36300000⟩⟩ } }
    (∀ c ∈ [bell 99 15 200 29699991 1, bell 99 15 201 29699990 1],
      morning.takes c.groups ∧ c.pattern.toNat ≤ 15 ∧ c.dueMs.toNat < 86400000 ∧ morning.tb.state ≠ .unset ∧
        (Instant.mk c.dueDay c.dueMs.toNat).later ⟨200, 29699990⟩ = true ∧
        (Instant.mk c.dueDay c.dueMs.toNat).later ⟨201, 29699990⟩ = false ∧
        (booked.bs.pendingBells.filter fun p => p.id ≠ c.id).length < 16 ∧
        16 ≤ (full.bs.pendingBells.filter fun p => p.id ≠ c.id).length) := by decide

/-- One ms beyond 24 h on, one ms beyond late grace, and at late grace and at now; with a covered part and without. -/
theorem witness_LateBookingRingsOrIsSkipped :
    let now : Instant := ⟨200, 29699990⟩
    morning.takes (bell 1 15 0 0 1).groups ∧ morning.tb.state ≠ .unset ∧ up.tb.state = .unset ∧
      up.takes (bell 1 15 0 0 1).groups ∧ (bell 1 15 0 0 1).pattern.toNat ≤ 15 ∧
      (bell 1 15 201 29699991 1).dueMs.toNat < 86400000 ∧
      (Instant.mk 201 29699991).later ⟨201, 29699990⟩ = true ∧
      ((Instant.mk 200 29639989).later ⟨201, 29699990⟩ = false ∧ (Instant.mk 200 29639989).later now = false ∧
        (morning.bs.lateGrace : Int) * 1000 < now.since ⟨200, 29639989⟩) ∧
      (∀ due ∈ [Instant.mk 200 29639990, Instant.mk 200 29699990],
        due.later ⟨201, 29699990⟩ = false ∧ due.later now = false ∧
          now.since due ≤ (morning.bs.lateGrace : Int) * 1000) ∧
      ((1 : ZoneSet) &&& morning.enabledZones) &&& morning.dc.seized = 0 ∧
      ((0xFF : ZoneSet) &&& sounding.enabledZones) &&& sounding.dc.seized ≠ 0 ∧ sounding.tb.now.instant = now ∧
      sounding.takes (bell 1 15 200 29699990 0xFF).groups := by decide

theorem witness_PatternPhasesFollowRecord :
    let r : Pattern := { lead := 2000, a := 3, b := 1, strokes := 6 }
    let at_ (phase : PlayerPhase) (strokes left : Nat) : State := morning.withPlayer 4 ⟨r, .plan, phase, strokes, left⟩
    r.Ok ∧ (Pattern.mk 5000 7 3 63).Ok ∧ 0 < r.lead ∧
      ((at_ .lead 6 1).bo.players[(4 : Fin 16)]).timeLeft ≠ 0 ∧
      ((at_ .lead 6 0).bo.players[(4 : Fin 16)]).timeLeft = 0 ∧
      0 < ((at_ .strokeOff 1 0).bo.players[(4 : Fin 16)]).strokesLeft ∧
      ((at_ .strokeOn 6 0).bo.players[(4 : Fin 16)]).phase = .strokeOn ∧
      ((at_ .strokeOff 0 0).bo.players[(4 : Fin 16)]).strokesLeft = 0 := by decide

/-- Replay runs with its spacing run out. -/
def replaying (deferred : List Deferred) (marker : Bool) : State :=
  { morning with bs := { morning.bs with replay := .running, spacing := 0, deferred, marker, replayAge := 10 } }

/-- An empty queue, an entry one ms beyond the age limit, and one at it, as a pattern and as a chime. -/
theorem witness_ReplayTakesNextEntry :
    let e (ms : Nat) : Deferred := ⟨1, .pattern 5, some ⟨200, ms⟩, .plan⟩
    let s := replaying [e 29689990, e 3] true
    let last := replaying [{ e 29689990 with sound := .chime }] true
    s.bs.replay = .running ∧ s.bs.spacing = 0 ∧ (replaying [] false).bs.deferred = [] ∧
      (replaying [e 29689989] false).bs.marker = false ∧
      (replaying [e 29689989] false).bs.replayAge * 1000 < entryAge s.tb.now? (e 29689989) ∧
      s.bs.deferred = e 29689990 :: [e 3] ∧ (e 29689990).sound = .pattern 5 ∧
      entryAge s.tb.now? (e 29689990) ≤ s.bs.replayAge * 1000 ∧
      last.bs.deferred = { e 29689990 with sound := .chime } :: [] ∧ last.bs.marker = true ∧
      morning.bs.replay = .idle := by decide

/-- Each policy over a queue that wraps past day 65535; entries that win zones, one of them with no due instant; ages; and
under ALL a head beyond the age limit and one at it. -/
theorem witness_ReplayBeginsByPolicy :
    let e (day : BitVec 16) (ms : Nat) : Deferred := ⟨1, .chime, some ⟨day, ms⟩, .plan⟩
    let s := replaying [e 65535 5, e 0 3] true
    let policy (p : ReplayPolicy) (deferred : List Deferred) : State :=
      { morning with bs := { morning.bs with replayPolicy := p, deferred, replayAge := 10 } }
    let latest := policy .latest [⟨3, .pattern 5, some ⟨200, 29689990⟩, .plan⟩, ⟨1, .chime, none, .line⟩]
    (policy .none [e 0 3]).bs.replayPolicy = .none ∧ (policy .none [e 0 3]).bs.deferred ≠ [] ∧
      (∀ f ∈ s.bs.deferred, ∀ d ∈ f.due, (d.day - 65535).toNat < 32768) ∧ s.bs.deferred[1]? = some (e 0 3) ∧
      entryAge none (e 0 3) = 0 ∧ morning.bs.deferred = [] ∧
      (latest.bs.replayPolicy = .latest ∧ latest.bs.deferred ≠ [] ∧ latest.latestZones 0 = 2 ∧ latest.latestZones 1 = 1 ∧
        ∀ k < latest.bs.deferred.length, memSet 2 (latest.latestZones k) = false) ∧
      (let all := policy .all [e 200 29689990]
       all.bs.replayPolicy = .all ∧ all.bs.deferred = e 200 29689990 :: [] ∧
         entryAge all.tb.now? (e 200 29689990) ≤ all.bs.replayAge * 1000 ∧
         all.bs.replayAge * 1000 < entryAge all.tb.now? (e 200 29689989)) := by decide

/-! ## Hypotheses that hold somewhere: zones and announcements -/

/-- A zone record with an owner, a gain and a ramp whose 2 ms have passed. -/
def ramping (owner : Owner) (cls : OwnerClass) (gain target : Nat) (ramp : Ramp) : ZoneRec :=
  { ZoneRec.initial with owner, cls, gain, target, ramp }

theorem witness_RampStepMovesOneCode :
    let s (r : ZoneRec) : State := morning.withZone 4 r
    ((s (ramping .chime (.rank 3) 5 5 .steady)).zone 4).ramp = .steady ∧
      (let r := (s (ramping .chime (.rank 3) 5 6 .up)).zone 4
       r.ramp = .up ∧ r.rampTimer = 0 ∧ r.gain < r.target ∧ 6 = r.gain + 1) ∧
      (let r := (s (ramping .chime (.rank 3) 5 3 .up)).zone 4
       r.ramp = .up ∧ r.rampTimer = 0 ∧ r.target < r.gain ∧ r.gain = 4 + 1) ∧
      (let r := (s (ramping .chime (.rank 3) 2 0 .down)).zone 4
       r.ramp = .down ∧ r.rampTimer = 0 ∧ 1 < r.gain) := by decide

/-- A zone at gain 1 and at gain 0, on its way to 0: a handover from slot 1 to slot 0, from slot 1 and from an older releasing
chime to a scheduled chime, and from a scheduled chime to a slot; and a release with a slot pending. -/
theorem witness_HandoverCompletesAtZero :
    ∀ gain ∈ [0, 1],
      let r := ramping (.slot 1) (.rank 2) gain 0 .down
      let s (c : Claimant) (stop : Option Tick) (owner : Owner) (releasing : Bool) : State :=
        ((morning.withZone 0 { r with claimant := some c, chimeEnd := stop, owner, releasing }).withSlot 1
          { live with granted := 1 }).withSlot 0 { live with openOrder := 2, channel := some 3 }
      ∀ x ∈ [s (.slot 0) none (.slot 1) false, s .chime (some 900) (.slot 1) false, s .chime (some 900) .chime true,
          s (.slot 0) (some 900) .chime false, s (.slot 0) none (.slot 1) true],
        (x.zone 0).ramp = .down ∧ (x.zone 0).rampTimer = 0 ∧ (x.zone 0).gain ≤ 1 ∧ (x.zone 0).claimant ≠ none ∧
          (∀ n : SlotId, (x.zone 0).claimant = some (.slot n) → (x.zone 0).owner ≠ .slot n) ∧
          ((x.zone 0).claimant = some .chime → (x.zone 0).chimeEnd ≠ none) ∧
          ∀ a b : SlotId, a ≠ b → (x.slot a).openOrder = (x.slot b).openOrder → (x.slot a).openOrder = 0 := by decide

/-- Zone 0 released by a scheduled chime at gain 1, with nothing pending. -/
def releasing : State := morning.withZone 0 { ramping .chime (.rank 3) 1 0 .down with releasing := true }

/-- The same with slots waiting of three priorities, opened in the order of slots 2, 3 and 0. -/
def waitedOn (a b c : Nat) : State :=
  ((releasing.withSlot 0 { live with priority := a, openOrder := 3 }).withSlot 2
    { live with priority := b, openOrder := 1 }).withSlot 3 { live with priority := c, openOrder := 2 }

/-- Releases with no slot waiting, and with three, of which the one of the highest priority is the best, and at a tie the one
of the earliest open order. -/
theorem witness_HandoverCompletesAtZero_release :
    (∀ x ∈ [releasing, waitedOn 5 3 4, waitedOn 3 4 4], (x.zone 0).releasing = true ∧ (x.zone 0).claimant = none ∧
      ∀ a b : SlotId, a ≠ b → (x.slot a).openOrder = (x.slot b).openOrder → (x.slot a).openOrder = 0) ∧
    (∀ n : SlotId, ¬ releasing.WaitsOn 0 n) := by decide

theorem witness_HandoverCompletesAtZero_best :
    (waitedOn 5 3 4).BestWaiting 0 0 ∧ (waitedOn 3 4 4).BestWaiting 0 2 := by decide

/-- A release by a slot whose drain is done and whose last zone it is; it becomes FREE, and the slot opened after it moves
down. -/
theorem witness_HandoverCompletesAtZero_freed :
    let s := ((morning.withZone 0 { ramping (.slot 1) (.rank 2) 1 0 .down with releasing := true }).withSlot 1
      { live with state := .draining, granted := 1 }).withSlot 2 { live with requested := 0, openOrder := 2 }
    (s.zone 0).ramp = .down ∧ (s.zone 0).rampTimer = 0 ∧ (s.zone 0).gain ≤ 1 ∧ (s.zone 0).releasing = true ∧
      (s.zone 0).claimant = none ∧ (s.slotTold 0 1).state = .free ∧ (s.slotTold 0 2).openOrder = 1 := by decide

/-- Ends just reached, one ms ahead, and pending. -/
theorem witness_ScheduledChimeEndReleases :
    let r : ZoneRec := { ramping .chime (.rank 3) 60 60 .steady with chimeEnd := some 0 }
    let s := ((morning.withZone 4 r).withZone 5 { r with chimeEnd := some 1 }).withZone 6
      { ramping (.slot 1) (.rank 2) 9 9 .down with claimant := some .chime, chimeEnd := some 0 }
    (∀ z : Zone, (s.zone z).owner = .chime → 0 < (s.zone z).gain) ∧ (s.zone 0).chimeEnd = none ∧
      (s.zone 4).releasing = false ∧ (s.zone 4).claimant ≠ some .chime ∧ (s.tb.tick - 0).toNat < 2147483648 ∧
      2147483648 ≤ (s.tb.tick - 1).toNat ∧ (s.zone 6).claimant = some .chime ∧ (s.zone 6).chimeEnd = some 0 := by decide

/-- The last part at the gains 80 and 81 and a clear; a zone that goes disabled, one that goes enabled and is named by the
drill, one that goes enabled in IDLE, and one that stays enabled under each owner. -/
theorem witness_ZoneRecordTakesEffect :
    let s := sounding.withZone 3 { ZoneRec.initial with enabled := false }
    let idle := morning.withZone 3 { ZoneRec.initial with enabled := false }
    let part (enabled : Byte) : Part := Vector.ofFn fun i => if i = 0 then enabled else 0
    let write (enabled : Byte) (s : State) : State :=
      { s with mu := { s.mu with cursor := { table := .zone, index := 3, part := 1 }, staged := [part enabled] } }
    s.hears (mgmt 2 [80, 80]) ∧ 2 ≤ (mgmt 2 [80, 80]).length.toNat ∧ (mgmt 2 [80, 80]).length.toNat ≤ 30 ∧
      (write 1 s).hears (mgmt 2 [81, 80]) ∧ (write 1 s).mu.staged = [part 1] ∧
      (write 1 s).mu.cursor = { table := .zone, index := 3, part := 1 } ∧
      (80 < ((mgmt 2 [81, 80]).payload[0]).toNat ∧ ((mgmt 2 [80, 80]).payload[0]).toNat ≤ 80) ∧
      ((part 1)[0] != 0) = true ∧ ((part 0)[0] != 0) = false ∧
      (s.zone 0).enabled = true ∧ (s.zone 3).enabled = false ∧ s.dc.state = .sounding ∧ memSet 3 s.dc.named = true ∧
      (idle.zone 3).enabled = false ∧ idle.dc.state = .idle ∧
      (let r (owner : Owner) : ZoneRec := { ramping owner (.rank 4) 9 9 .steady with releasing := false }
       (r (.slot 1)).owner = .slot 1 ∧ (r .chime).owner = .chime ∧
         { r .drill with drillSource := some .evac }.drillSource = some .evac ∧ (r .none).owner = .none) := by decide

/-- A slot for a new session, over each kind of zone, and none; a bound slot alone, LIVE or DRAINING, that owns one zone, is
pending on one and waits on one. -/
theorem witness_OpenTakesLowestFreeSlot :
    let c := session 7 7 true 90 0xFFFF
    let s := (((morning.withZone 0 (ramping .chime (.rank 3) 9 9 .steady)).withZone 1
      (ramping .drill .yielding 0 0 .steady)).withSlot 0 live)
    let full := (((morning.withSlot 0 live).withSlot 1 live).withSlot 2 live).withSlot 3 live
    (s.takes c.groups ∧ c.channel.toNat ≤ 7 ∧ (∀ m : SlotId, (s.slot m).channel ≠ some c.channel) ∧
      (∀ m : SlotId, (full.slot m).channel ≠ some c.channel ∧ (full.slot m).state ≠ .free) ∧ (s.slot 1).state = .free ∧
      (∀ m : SlotId, m < 1 → (s.slot m).state ≠ .free) ∧
      (∀ z : Zone, (s.zone z).cls = .yielding → (s.zone z).owner = .drill) ∧
      (s.zone 0).cls = .rank 3 ∧ (s.zone 0).ramp ≠ .down ∧ (s.zone 1).cls = .yielding ∧ (s.zone 2).owner = .none ∧
      (∀ z : Zone, (s.zone z).owner ≠ .slot 1 ∧ (s.zone z).claimant ≠ some (.slot 1))) := by decide

/-- Slot 1 owns zone 0, is pending on zone 1 and waits on zone 2. -/
def held (state : SlotState) : State :=
  (((morning.withZone 0 (ramping (.slot 1) (.rank 4) 9 70 .up)).withZone 1
    { ramping .chime (.rank 3) 9 0 .down with claimant := if state = .live then some (.slot 1) else none }).withZone 2
      (ramping .chime (.rank 3) 9 9 .steady)).withSlot 1
        { live with state, granted := 1, requested := if state = .live then 7 else 1 }

/-- A new set that drops the zones it holds, and one that keeps them, at a higher and a lower priority. -/
theorem witness_OpenTakesLowestFreeSlot_again :
    (∀ state ∈ [SlotState.live, .draining],
      (((held state).slot 1).channel = some 2 ∧ ((held state).slot 1).state ≠ .free ∧
        (∀ m : SlotId, m < 1 → ((held state).slot m).channel ≠ some 2) ∧
        ((∀ z : Zone, ((held state).zone z).owner = .none →
            ((held state).zone z).gain = 0 ∧ ((held state).zone z).ramp = .steady) ∧
          (held state).OwnersAgree ∧ (held state).ClaimantsAgree ∧
          ∀ n : SlotId, ((held state).slot n).state = .free → (held state).slot n = Slot.free) ∧
        (∀ m : SlotId, m ≠ 1 → ((held state).slot m).state = .free ∨ ((held state).slot m).state = .draining) ∧
        ((held state).zone 0).owner = .slot 1 ∧ 0 < ((held state).zone 0).gain)) ∧
    ((held .live).zone 1).claimant = some (.slot 1) ∧ memSet 2 ((held .live).slot 1).requested = true ∧
    (session 2 6 false 0 8).priority.toNat = 6 ∧ memSet 0 (session 2 6 false 0 8).zones = false := by decide

theorem witness_CloseStartsDraining :
    let c := session 2 0 false 0 0
    let held := (morning.withZone 0 (ramping (.slot 1) (.rank 4) 9 9 .steady)).withSlot 1 { live with granted := 1 }
    let playing := morning.withSlot 1 { live with buffer := [tone], playout := true }
    let draining := morning.withSlot 1 { live with state := .draining }
    held.takes c.groups ∧ c.channel.toNat ≤ 7 ∧ (∀ m : SlotId, (morning.slot m).channel ≠ some c.channel) ∧
      (held.slot 1).channel = some c.channel ∧ (∀ m : SlotId, m < 1 → (held.slot m).channel ≠ some c.channel) ∧
      (draining.slot 1).state = .draining ∧ (∀ z : Zone, (held.zone z).claimant ≠ some (.slot 1)) ∧
      (playing.slot 1).buffer = [tone] ∧ (morning.withSlot 1 live |>.slot 1).granted = 0 ∧ (held.slot 1).buffer = [] ∧
      (∀ z : Zone, memSet z (held.slot 1).granted = true →
        (held.zone z).owner = .slot 1 ∧ (held.zone z).releasing = false ∧ 0 < (held.zone z).gain) := by decide

/-- The ends of each range of the gap, with the sequence expected and none expected; a gap of 2 with room for two copies, for
one, for none and with no room at all, and with playout clear, where the fourth cell placed begins it. -/
theorem witness_AudioFollowsSlotState :
    let c := audio 2 9
    let s (r : Slot) : State := morning.withSlot 1 r
    let gap (e : Byte) : Nat := ({ live with expected := some e } : Slot).expected.elim 0 fun e => (c.sequence - e).toNat
    let filled (n : Nat) (playout : Bool) : Slot :=
      { live with buffer := List.replicate n tone, playout, expected := some 7, lastCell := some tone }
    morning.li.sync = .up ∧ (∀ m : SlotId, (morning.slot m).channel ≠ some (c.channel.setWidth 8)) ∧
      (s live |>.slot 1).channel = some (c.channel.setWidth 8) ∧
      (∀ m : SlotId, m < 1 → (s live |>.slot m).channel ≠ some (c.channel.setWidth 8)) ∧
      (s live |>.slot 1).state = .live ∧ 128 ≤ gap 137 ∧ gap 138 = 127 ∧ gap 6 = 3 ∧ gap 7 = 2 ∧ gap 8 = 1 ∧ gap 9 = 0 ∧
      (s live |>.slot 1).expected = none ∧ (filled 13 true).lastCell = some tone ∧
      (∀ x ∈ [(13, 2), (14, 1), (15, 0), (16, 0)], min 2 (16 - x.1 - 1) = x.2 ∧ (filled x.1 true).buffer.length = x.1) ∧
      4 ≤ (filled 1 false).buffer.length + 2 + 1 ∧ (filled 1 false).playout = false := by decide

/-- One ms before the chime's end, and at it; a take with a cell and without one. -/
theorem witness_SessionChimeAndPlayout :
    let s (r : Slot) : State := morning.withSlot 1 r
    let chime (start : Tick) : Slot := { live with state := .chime, chimeStart := some start }
    ((s (chime (0 - 999)) |>.slot 1).state = .chime ∧ (morning.tb.tick - (0 - 999)).toNat < 1000 ∧
      1000 ≤ (morning.tb.tick - (0 - 1000)).toNat) ∧
    (s live |>.slot 1).playout = false ∧
    (s { live with playout := true } |>.slot 1).takeTimer = 0 ∧ (s { live with playout := true } |>.slot 1).buffer = [] ∧
    (s { live with playout := true, buffer := [tone] } |>.slot 1).buffer = [tone] := by decide

/-- A drain at its end over a set of zones, of which zone 0 is at gain 0 and zone 1 above it. -/
def drained (granted : ZoneSet) : State :=
  ((morning.withSlot 1 { live with state := .draining, playout := true, granted }).withZone 0
    (ramping (.slot 1) (.rank 4) 0 0 .steady)).withZone 1 (ramping (.slot 1) (.rank 4) 9 9 .steady)

/-- A zone set and its part that completes at once, as a drain's end asks for them. -/
abbrev DrainsAs (granted done : ZoneSet) : Prop :=
  ∀ z : Zone, (memSet z granted = true → ((drained granted).zone z).owner = .slot 1) ∧
    (memSet z done = true ↔
      memSet z granted = true ∧ ((drained granted).zone z).releasing = false ∧ ((drained granted).zone z).gain = 0)

/-- No zone, a zone at gain 0 alone, and one above gain 0 beside it. -/
theorem witness_SessionChimeAndPlayout_drained :
    DrainsAs 0 0 ∧ DrainsAs 1 1 ∧ DrainsAs 3 1 ∧ ((drained 3).zone 0).claimant = none ∧
      (∀ m : SlotId, ¬ (drained 3).WantsZone 0 m) ∧ ((drained 3).slot 1).state = .draining ∧
      ((drained 3).slot 1).takeTimer = 0 := by
  refine ⟨?_, ?_, ?_, ?_, ?_, ?_, ?_⟩ <;> decide

/-- One ms before the session timeout, and at it with an empty buffer, with and without a zone, and with 3 cells that do not
play and one that does. -/
theorem witness_SilentSessionTimesOut :
    let s (n : Nat) (r : Slot) : State := morning.withSlot 1 { r with audioTimer := n }
    let owner := (s 3000 { live with granted := 1 }).withZone 0 (ramping (.slot 1) (.rank 4) 9 9 .steady)
    (∀ x ∈ [s 3000 live, s 3000 { live with buffer := [tone, tone, tone] }, owner,
        s 3000 { live with buffer := [tone], playout := true }],
      (x.slot 1).state = .live ∧ x.au.sessionTimeout * 1000 ≤ (x.slot 1).audioTimer ∧
        ∀ z : Zone, (x.zone z).claimant ≠ some (.slot 1)) ∧
      (s 2999 live |>.slot 1).audioTimer < (s 2999 live).au.sessionTimeout * 1000 ∧
      ((s 3000 live |>.slot 1).buffer = [] ∧ (s 3000 live |>.slot 1).granted = 0 ∧
        (s 3000 live |>.slot 1).playout = false) ∧
      ((owner.slot 1).buffer = [] ∧ (owner.slot 1).granted ≠ 0 ∧ ∀ z : Zone, memSet z (owner.slot 1).granted = true →
        (owner.zone z).owner = .slot 1 ∧ (owner.zone z).releasing = false ∧ 0 < (owner.zone z).gain) := by decide

/-! ## Hypotheses that hold somewhere: clock circuits -/

/-- At the hold span, one position beyond it, and in step; UNSET; a circuit of each mode with no impulse in flight. -/
theorem witness_ImpulseDecisionTable :
    (0 < 720 ∧ (720 % 720 + 675) % 720 = 675 ∧ 675 ≠ 0 ∧ 720 - 675 ≤ 45) ∧
      ((720 % 720 + 674) % 720 = 674 ∧ 45 < 720 - 674) ∧ (719 % 720 + 0) % 720 = 719 ∧ up.tb.state = .unset ∧
      (let c (mode : CircuitMode) : Circuit :=
        { Circuit.initial ⟨490, .neg⟩ with config := { CircuitConfig.initial with mode } }
       (c .minute).config.mode = .minute ∧ (c .half).config.mode = .half ∧ (c .minute).config.hold = 45 ∧
         2 * (c .half).config.hold = 90 ∧ ∀ mode ∈ [CircuitMode.minute, .half], (c mode).inFlight = none) := by decide

/-- A minute circuit with its dial at a position. -/
def minutes (dial : Nat) : Circuit :=
  { Circuit.initial ⟨dial, .neg⟩ with config := { CircuitConfig.initial with mode := .minute } }

/-- The morning at 08:14 is position 494. -/
theorem witness_ImpulseAndGapEnds :
    let s (c : Circuit) : State := morning.withCircuit 2 c
    let flying : Circuit := { minutes 494 with inFlight := some .neg }
    let decided (dial : Nat) := decisionOf 720 (minutes dial).config.holdSpan dial (some (targetAt .minute morning.tb.now))
    (s flying |>.circuit 2).inFlight ≠ none ∧ (s flying |>.circuit 2).impulseLeft = 0 ∧
      (s flying |>.circuit 2).resetPending = false ∧
      (s { flying with resetPending := true } |>.circuit 2).resetPending = true ∧
      (s (minutes 494) |>.circuit 2).gap ≠ some 0 ∧ (s { minutes 494 with gap := some 0 } |>.circuit 2).gap = some 0 ∧
      (minutes 494).config.mode = .minute ∧ morning.tb.state ≠ .unset ∧ decided 494 ≠ .advance ∧
      decided 493 = .advance := by decide

/-- A display circuit whose moment has come and one whose moment has not; a source with no next event, and with one; the drill
override. -/
theorem witness_FrameMomentSendsFrame :
    let c : Circuit := { minutes 0 with config := { CircuitConfig.initial with mode := .display } }
    let s (x : State) (timer : Nat) : State := x.withCircuit 2 { c with frameTimer := timer }
    let next := beforeEvent quarterPast
    ((s morning 0).circuit 2).config.mode = .display ∧ ((s morning 0).circuit 2).frameTimer = 0 ∧
      ((s morning 1).circuit 2).frameTimer ≠ 0 ∧ (morning.circuit 2).config.mode ≠ .display ∧
      (∀ n j, ¬ morning.Ahead 1 n j) ∧ next.NextAhead 1 3 7 ∧ ¬ morning.Overridden c.config ∧
      sounding.Overridden { c.config with linked := 1 } ∧ sounding.dc.state ≠ .panel := by decide

theorem witness_SetDialFollowsTable :
    let c (circuit hi lo polarity : Byte) := mgmt 4 [circuit, hi, lo, polarity]
    let s := morning.withCircuit 2 (minutes 494)
    let flying := morning.withCircuit 2 { minutes 494 with inFlight := some .neg }
    s.hears (c 2 2 207 2) ∧ 4 ≤ (c 2 2 207 2).length.toNat ∧ (c 2 2 207 2).length.toNat ≤ 30 ∧
      3 < ((c 4 0 0 0).payload[0]).toNat ∧ ((c 2 2 207 2).payload[0]).toNat = (2 : CircuitId).val ∧
      (flying.circuit 2).inFlight ≠ none ∧ (s.circuit 2).inFlight = none ∧
      2 < ((c 2 0 0 3).payload[3]).toNat ∧
      720 ≤ ((c 2 2 208 2).payload[1] ++ (c 2 2 208 2).payload[2] : BitVec 16).toNat ∧
      ((c 2 2 207 2).payload[1] ++ (c 2 2 207 2).payload[2] : BitVec 16).toNat < 720 ∧
      (c 2 2 207 2).payload[3] = 2 := by decide

/-! ## Hypotheses that hold somewhere: drills and contacts -/

/-- In IDLE, and in CLEARING with a smaller set than the one it hands back; in SOUNDING and in PANEL. -/
theorem witness_DrillStartSeizesZones :
    let again := { clearing 5 with dc := { (clearing 5).dc with seized := 15 } }
    let panel : State := { morning with dc := { morning.dc with state := .panel } }
    (∀ s ∈ [morning, again], s.takes (drill 3).groups ∧
      (3 : ZoneSet) = (if (drill 3).zonesGiven then (drill 3).zones else s.drillZones) ∧
      (3 : ZoneSet) = 3 &&& s.enabledZones) ∧
    morning.dc.state = .idle ∧ morning.dc.seized = 0 ∧ again.dc.state = .clearing ∧ memSet 2 again.dc.seized = true ∧
      sounding.takes (drill 3).groups ∧ sounding.dc.state = .sounding ∧ panel.takes (drill 3).groups ∧
      panel.dc.state = .panel := by decide

/-- One ms before the sound limit, and at it; each state in which a SILENCE is ignored or counted. -/
theorem witness_DrillSilencedByCommandOrLimit :
    let limit (start : Tick) : State := { sounding with dc := { sounding.dc with drillStart := some start } }
    let state (x : DrillState) : State := { sounding with dc := { sounding.dc with state := x } }
    sounding.dc.openRecord = some 0 ∧ sounding.dc.ring = record :: [] ∧
      sounding.dc.state = .sounding ∧ sounding.takes (drill 0).groups ∧
      (limit (0 - 179999)).dc.elapsedAt 0 < (limit (0 - 179999)).dc.soundLimit * 1000 ∧
      (limit (0 - 180000)).dc.soundLimit * 1000 ≤ (limit (0 - 180000)).dc.elapsedAt 0 ∧
      (∀ x ∈ [DrillState.idle, .silenced, .clearing, .panel],
        (state x).dc.state = x ∧ (state x).takes (drill 0).groups) := by decide

/-- Two slots of priority 6 wait on a seized zone of the drill, the one of the earlier open order after a slot of priority 7,
and none waits on the others. -/
theorem witness_DrillSilencedByCommandOrLimit_six :
    let six (order priority : Nat) : Slot := { live with priority, openOrder := order }
    let s := ((gripped.withSlot 0 (six 3 6)).withSlot 1 (six 1 7)).withSlot 2 (six 2 6)
    (∀ z : Zone, memSet z s.dc.seized = true → (s.zone z).owner = .drill) ∧ s.SixTakes 0 2 ∧ memSet 0 s.dc.seized = true ∧
      memSet 1 s.dc.seized = true ∧ ∀ n : SlotId, ¬ s.SixWaits 1 n := by decide

theorem witness_MusterMarksOpenRecord :
    sounding.takes (drill 0).groups ∧ sounding.dc.state = .sounding ∧ sounding.dc.openRecord = some 0 ∧
      sounding.dc.ring = record :: [] ∧ morning.dc.state = .idle ∧ (clearing 0).dc.state = .clearing ∧
      { morning.dc with state := DrillState.panel }.state = .panel ∧
      (let c := (sounding.withInput 3 (contact .muster false)).input 3
       20 ≤ c.timer ∧ c.function = .muster ∧ c.pin = c.activeHigh) := by decide

theorem witness_AllClearClosesRecord :
    let panel : State := { morning with dc := { morning.dc with state := .panel } }
    sounding.takes (drill 0).groups ∧ sounding.dc.state = .sounding ∧ sounding.dc.openRecord = some 0 ∧
      sounding.dc.ring = record :: [] ∧ (∀ s ∈ [morning, clearing 5, panel], s.takes (drill 0).groups) ∧
      morning.dc.state = .idle ∧ (clearing 5).dc.state = .clearing ∧ panel.dc.state = .panel := by decide

/-- One ms before the chime's end, and at it. -/
theorem witness_DrillEndsHandBack :
    let panel : State := { morning with dc := { morning.dc with state := .panel } }
    sounding.dc.ring = record :: [] ∧ sounding.takes (drill 0).groups ∧
      sounding.dc.openRecord = some 0 ∧ sounding.dc.state = .sounding ∧
      (clearing 3000).takes (drill 0).groups ∧ (clearing 3000).dc.ring = { record with outcome := .cleared } :: [] ∧
      (clearing 3000).dc.state = .clearing ∧ (clearing 3000).dc.openRecord = none ∧
      (clearing 3000).dc.chimeStart = some (0 - 3000) ∧ 3000 ≤ ((clearing 3000).tb.tick - (0 - 3000)).toNat ∧
      ((clearing 2999).tb.tick - (0 - 2999)).toNat < 3000 ∧
      (∀ s ∈ [morning, panel], s.takes (drill 0).groups) ∧ morning.dc.state = .idle ∧ panel.dc.state = .panel := by decide

/-- The ends of the phases, and a drill that sounds at 500 ms. -/
theorem witness_EvacuationSignalFollowsPhase :
    evacOn 499 = true ∧ evacOn 500 = false ∧ evacOn 2499 = true ∧ evacOn 2500 = false ∧ evacOn 3999 = false ∧
      sounding.dc.state = .sounding ∧ sounding.dc.evacStart = some 0xFFFFFE0C ∧ morning.dc.state ≠ .sounding := by decide

/-- 19 ms and 20 ms; an edge of each function in the states that take, ignore and refuse it. -/
theorem witness_DebouncedChangeReported :
    let input (s : State) (c : Contact) : State := s.withInput 3 c
    let s (c : Contact) : State := input morning c
    let going (f : InputFunction) : Contact := contact f false
    let allowed (x : State) : State := { x with dc := { x.dc with localStart := true } }
    (s { contact .general true with timer := 19 } |>.input 3).timer < 20 ∧ 20 ≤ (s (contact .general true) |>.input 3).timer ∧
      (s (contact .general true) |>.input 3).function = .general ∧
      (s (contact .muster true) |>.input 3).pin ≠ (s (contact .muster true) |>.input 3).activeHigh ∧
      (∀ f ∈ [InputFunction.drillStart, .drillSilence, .muster, .allClear, .bellRing],
        (s (going f) |>.input 3).function = f ∧ 20 ≤ (s (going f) |>.input 3).timer ∧
          (s (going f) |>.input 3).pin = (s (going f) |>.input 3).activeHigh) ∧
      morning.dc.localStart = false ∧ (allowed morning).dc.localStart = true ∧
      (allowed (clearing 5)).dc.localStart = true ∧ (allowed (clearing 5)).dc.state = .clearing ∧ morning.dc.state = .idle ∧
      morning.dc.seized = 0 ∧ (clearing 0).dc.state = .clearing ∧ sounding.dc.state = .sounding ∧
      sounding.dc.openRecord = some 0 ∧ sounding.dc.ring = record :: [] ∧
      (∀ m : SlotId, (sounding.slot m).priority ≠ 6) ∧ { morning.dc with state := DrillState.panel }.state = .panel ∧
      (s (contact .bellRing false) |>.input 3).zones &&& morning.enabledZones = 0 ∧
      ({ going .bellRing with zones := 0x00FF }.zones &&& sounding.enabledZones) &&& sounding.dc.seized ≠ 0 := by decide

/-- The panel has called since 5 ms ago. -/
def panel : State :=
  { morning with dc := { morning.dc with state := .panel, seized := 0xFFFF, panelStart := some (0 - 5, none) } }

/-- From IDLE, SOUNDING and CLEARING; another alarm; and the last one going inactive. -/
theorem witness_PanelBeginsAndEnds :
    let with_ (s : State) : State := s.withInput 3 (contact .panelAlarm false)
    let again := with_ panel
    let last := panel.withInput 3 (contact .panelAlarm true)
    let w : State := last.withInput 3 { contact .panelAlarm true with level := true, timer := 0, changed := true }
    (∀ s ∈ [morning, sounding, clearing 5], ((with_ s).input 3).function = .panelAlarm ∧ 20 ≤ ((with_ s).input 3).timer ∧
      ((with_ s).input 3).pin = ((with_ s).input 3).activeHigh ∧ (with_ s).dc.state ≠ .panel) ∧
      (morning.dc.openRecord = none ∧ sounding.dc.openRecord = some 0 ∧ sounding.dc.ring = record :: [] ∧
        (clearing 5).dc.openRecord = none ∧ (clearing 5).dc.ring = { record with outcome := .cleared } :: []) ∧
      (again.input 3).pin = (again.input 3).activeHigh ∧ again.dc.state = .panel ∧
      (last.input 3).pin ≠ (last.input 3).activeHigh ∧ last.dc.panelStart = some (0 - 5, none) ∧
      last.dc.state = .panel ∧ (∀ m : InputId, ¬ w.alarms m) ∧ last.dc.openRecord = none := by decide

/-! ## Hypotheses that hold somewhere: the signal line and management -/

/-- The queue empty, and full. -/
def queued (n : Nat) : State :=
  { up with mu := { up.mu with queue := List.replicate n (.notice 5 0 3 [0, 0, 0, 0]) } }

theorem witness_PassingAndEmptyCells :
    up.li.sync = .up ∧ 9 ≤ (9 : BitVec 4).toNat ∧ (queued 0).mu.queue = [] ∧
      (queued 1).mu.queue = .notice 5 0 3 [0, 0, 0, 0] :: [] ∧
      (let c : MgmtCell := { mgmt 0 [] with destination := 63, groups := 2 }
       ¬ up.isOwn c ∧ ¬ up.isBroadcast c ∧ ¬ State.reset.isOwn { c with destination := 0 }) ∧
      ((ReplyCode.unknown, (6 : Byte)) ∈ [(ReplyCode.ok, (0 : Byte)), (.clamped, 1), (.range, 2), (.inUse, 3), (.busy, 4),
        (.field, 5), (.unknown, 6)]) ∧
      (List.replicate 30 (0 : Byte)).length ≤ 30 ∧ [(1 : Byte), 2, 3, 4].length = 4 := by decide

set_option maxRecDepth 20000 in
theorem witness_DamagedCellLogged :
    cellGood { emptyCell with check := 0 } = false ∧ State.reset.li.sync = .down ∧ up.li.sync = .up ∧ up.mu.log = none ∧
      { up.mu with log := some ⟨[], 0, 0⟩ }.log ≠ none := by decide

set_option maxRecDepth 20000 in
/-- The third and the fourth missing start; the seventh and the eighth good cell; a row of a good cell while DOWN. -/
theorem witness_LineSyncTable :
    up.li.sync = .up ∧ { up.li with missing := 2 }.missing < 3 ∧ { up.li with missing := 3 }.missing = 3 ∧
      State.reset.li.sync = .down ∧ cellGood emptyCell = true ∧ cellGood { emptyCell with check := 0 } = false ∧
      { State.reset.li with good := 6 }.good < 7 ∧ { State.reset.li with good := 7 }.good = 7 ∧
      cellOf (.emptyCell ⟨0, Vector.replicate 37 0⟩) = some emptyCell := by decide

/-- To another station; broadcast to this group, where it is executed, at an unaddressed station too, malformed, and dropped;
and addressed here, malformed with an empty queue and with a waiting head, and dropped with a full one. -/
theorem witness_RequestsDroppedOrMalformed :
    let cell (destination transaction : Byte) : MgmtCell := { mgmt 0 [] with destination, transaction }
    let blank : State := { up with mu := { up.mu with station := 0 } }
    requestOf (.echo 7 (cell 63 254)) = some (7, 0, cell 63 254) ∧ requestOf (.echo 8 (cell 63 254)) = some (8, 0, cell 63 254) ∧
      requestOf (.unknownRequestKind 0 13 (cell 63 254)) = some (0, 13, cell 63 254) ∧
      (8 : Byte).toNat ∉ acceptingUnits (0 : Byte).toNat ∧ (0 : Byte).toNat ∉ acceptingUnits (13 : Byte).toNat ∧
      up.li.sync = .up ∧ blank.li.sync = .up ∧ ¬ up.isOwn (cell 6 0) ∧ ¬ up.isBroadcast (cell 6 0) ∧
      (∀ s ∈ [up, blank], ¬ s.isOwn (cell 63 254) ∧ s.isBroadcast (cell 63 254) ∧ s.mu.queue.length < 8) ∧
      ((cell 63 254).transaction ≠ 255 ∧ (cell 63 254).length.toNat ≤ 30 ∧ (cell 63 255).transaction = 255) ∧
      8 ≤ (queued 8).mu.queue.length ∧ up.isOwn (cell 5 255) ∧ (queued 0).mu.queue = [] ∧
      (queued 1).mu.queue = .notice 5 0 3 [0, 0, 0, 0] :: [] ∧
      ((cell 5 254).transaction ≠ 255 ∧ (queued 8).mu.queue =
        .notice 5 0 3 [0, 0, 0, 0] :: List.replicate 7 (.notice 5 0 3 [0, 0, 0, 0])) := by decide

/-- A setting of each unit, a unit and a number there are not, the first and last pages, their sections, and payloads that are
too short and too long; an unaddressed station that hears a broadcast. -/
theorem witness_ReadRequestsAnswered :
    let all : MgmtCell := { mgmt 0 [] with destination := 63 }
    morning.hears (mgmt 30 [3, 0]) ∧ (mgmt 30 [3, 0]).length.toNat ≤ 30 ∧ (7 : Byte).toNat ≤ 7 ∧
      morning.hears all ∧ { morning with mu := { morning.mu with station := 0 } }.hears all ∧
      morning.hears (mgmt 1 [1]) ∧ 1 ≤ (mgmt 1 [1]).length.toNat ∧
      ((6 : Byte), (mgmt 1 [1]).payload[0], 72) ∈ [((6 : Byte), (1 : Byte), morning.dc.drillGain)] ∧
      morning.hears (mgmt 0 []) ∧ (mgmt 0 []).length.toNat = 0 ∧
      (∀ page ∈ [(0 : Byte), 15], ((mgmt 2 [page, 0]).payload[0]).toNat ≤ 15 ∧ ((mgmt 2 [page, 0]).payload[1]).toNat = 0) ∧
      ((mgmt 2 [14, 1]).payload[0]).toNat = 14 ∧ ((mgmt 2 [14, 1]).payload[1]).toNat = 1 ∧
      ((mgmt 2 [15, 1]).payload[0]).toNat = 15 ∧ 1 < ((mgmt 2 [14, 2]).payload[1]).toNat ∧
      15 < ((mgmt 2 [16, 0]).payload[0]).toNat := by decide

/-- Refusals: a unit that does not accept the kind, a setting there is not; and of each kind a payload too short, or of 31
bytes. -/
theorem witness_ReadRequestsAnswered_refused :
    requestOf (.setDial 0 (mgmt 4 [])) = some (0, 10, mgmt 4 []) ∧ (0 : Byte).toNat ∉ acceptingUnits (10 : Byte).toNat ∧
      (0 : Byte).toNat ∉ acceptingUnits (13 : Byte).toNat ∧ (8 : Byte).toNat ∉ acceptingUnits (11 : Byte).toNat ∧
      (3 : Byte).toNat ∉ acceptingUnits (3 : Byte).toNat ∧
      (∀ x ∈ [((0 : Byte), (1 : Byte), 2), (4, 2, 5), (4, 3, 1), (0, 4, 2), (0, 6, 0), (0, 8, 2), (5, 10, 4), (0, 12, 0)],
        x.1.toNat ∈ acceptingUnits x.2.1.toNat ∧ morning.NeedsBytes x.2.1.toNat x.2.2) ∧
      lastSetting (4 : Byte).toNat < ((mgmt 1 [2]).payload[0]).toNat ∧ 1 ≤ (mgmt 1 [2]).length.toNat ∧
      (mgmt 3 [1]).length.toNat < 5 ∧ ((mgmt 3 [1]).payload[0]).toNat ≤ lastSetting (4 : Byte).toNat ∧
      morning.hears (mgmt 31 []) ∧ 30 < (mgmt 31 []).length.toNat ∧
      (∀ n : Fin 3, morning.mu.cursor.table.shape.sizes[n.val]? = some (4 - n.val)) ∧ morning.mu.cursor.part = 0 := by
  decide

/-- The last group, and a value above it; values at which the beacon-loss limit, the session timeout and the sound limit
act at once. -/
theorem witness_SettingWritesTaken :
    let c (number value : Byte) := mgmt 5 [number, 0, 0, 0, value]
    let value (m : MgmtCell) : Nat := ((m.payload[1] ++ m.payload[2]) ++ (m.payload[3] ++ m.payload[4]) : BitVec 32).toNat
    (∀ m ∈ [c 0 15, c 1 3, c 2 30, c 3 1], morning.hears m ∧ 5 ≤ m.length.toNat ∧ m.length.toNat ≤ 30) ∧
      (c 0 15).payload[0] = 0 ∧ (c 1 3).payload[0] = 1 ∧ (c 2 30).payload[0] = 2 ∧ (c 3 1).payload[0] = 3 ∧
      value (c 1 3) = 3 ∧ (15 : Fin 16).val = min 15 15 ∧ (15 : Fin 16).val = min 15 65536 ∧
      3 = max 3 (min 255 (value (c 1 3))) ∧ 1 = max 1 (min 10 0) ∧ 30 = max 30 (min 900 0) ∧
      (∀ m : SlotId, m ≠ 1 → (morning.slot m).state ≠ .live ∨ (morning.slot m).audioTimer < 1 * 1000) := by decide

/-- A cursor at a table, index and part with nothing staged. -/
def cursorAt (table : Table) (index part : Nat) : State :=
  { morning with mu := { morning.mu with cursor := { table, index, part }, staged := [] } }

/-- The window of a table and one past it; a part with nothing staged, a middle part behind a staged one, a part above 0 with
nothing staged, and READ_PART with parts staged. -/
theorem witness_CursorEventAndLogRequests :
    let c := mgmt 3 [11, 15]
    let s (index part : Nat) (staged : List Part) : State :=
      { morning with mu := { morning.mu with cursor := { table := .plan 2, index, part }, staged } }
    let part : Part := Vector.replicate 26 1
    morning.hears c ∧ 2 ≤ c.length.toNat ∧ c.length.toNat ≤ 30 ∧ (Table.shape .zone).code = c.payload[0] ∧
      (c.payload[1]).toNat < (Table.shape .zone).window ∧
      (Table.shape .zone).window ≤ ((mgmt 2 [11, 16]).payload[1]).toNat ∧ 13 < ((mgmt 2 [14, 0]).payload[0]).toNat ∧
      (∀ x ∈ [s 47 1 [part], s 47 1 [], s 48 1 [], s 47 2 [part, part]],
        x.hears c ∧ x.mu.cursor.table.shape.sizes.length = 3 ∧ x.mu.cursor.part < 3) ∧
      (s 47 1 [part]).mu.cursor.table.shape.sizes[1]? = some 3 ∧ (s 47 1 [part]).mu.staged.length = 1 ∧
      (s 47 1 [part]).mu.cursor.index < (Table.shape (.plan 2)).window ∧
      (Table.shape (.plan 2)).window ≤ (s 48 1 []).mu.cursor.index ∧ 0 < (s 47 1 []).mu.cursor.part := by decide

/-- Each table at its last index and last part, with fields at and beyond the ends of their ranges; the active plan; an
impulse in flight; and an input record that begins and one that ends the panel condition. -/
theorem witness_EntriesCommittedAndCleared :
    let part (bytes : List Byte) : Part := Vector.ofFn fun i => bytes.getD i.val 0
    let at_ (table : Table) (index n : Nat) (staged : List Part) : State :=
      { cursorAt table index n with mu := { (cursorAt table index n).mu with staged } }
    let plan := at_ (.plan 3) 47 2 [part [1, 1, 0x51, 0x7F], part [0xFF, 0xFF, 2]]
    let flying := (at_ .circuit 3 1 [part [1, 20, 120]]).withCircuit 3 { minutes 494 with inFlight := some .neg }
    let calling : State := panel.withInput 7 { Contact.initial with function := .panelAlarm, level := false }
    (∀ s ∈ [plan, flying, at_ .pattern 15 1 [part [50, 7, 3]], at_ .input 7 1 [part [5, 1]]],
      s.hears (mgmt 6 [63, 0, 0, 8, 0xFF, 0xFF]) ∧ s.mu.cursor.index < s.mu.cursor.table.window) ∧
    (plan.mu.cursor = { table := .plan 3, index := 47, part := 2 } ∧ (47 : Fin 48).val = 47 ∧
      plan.bs.selection ≠ .plan 3 ∧ { plan.bs with selection := .plan 3 }.selection = .plan 3 ∧
      (((part [1, 1, 0x51, 0x7F])[1]).toNat * 256 + ((part [1, 1, 0x51, 0x7F])[2]).toNat) * 256 +
        ((part [1, 1, 0x51, 0x7F])[3]).toNat = 86399 ∧
      ((mgmt 2 [15, 99]).payload[1]).toNat ≤ 99 ∧ 99 < ((mgmt 2 [15, 100]).payload[1]).toNat) ∧
    ((Pattern.mk (50 * 100) 7 3 63).Ok ∧ ¬ (Pattern.mk (51 * 100) 7 3 63).Ok) ∧
    ((cursorAt .dayMap 6 0).mu.cursor = ⟨.dayMap, 6, 0⟩ ∧ (mgmt 1 [7]).payload[0] = BitVec.ofNat 8 (7 : Fin 8).val ∧
      7 < ((mgmt 1 [8]).payload[0]).toNat) ∧
    ((at_ .except 31 1 [part [1, 0xFF, 0xFF]]).mu.staged = [part [1, 0xFF, 0xFF]] ∧
      (part [1, 0xFF, 0xFF])[1] ++ (part [1, 0xFF, 0xFF])[2] = (0xFFFF : BitVec 16)) ∧
    ((flying.circuit 3).inFlight ≠ none ∧ ((at_ .circuit 3 1 [part [1, 20, 120]]).circuit 3).inFlight = none ∧
      ((part [1, 20, 120])[1]).toNat ≤ 20 ∧ ((part [1, 20, 120])[2]).toNat ≤ 120 ∧ (part [1, 0, 0])[1] = 0) ∧
    (((part [5, 1])[0]).toNat = 5 ∧ ((part [5, 1])[1]).toNat = 1 ∧
      { (morning.input 7) with function := .panelAlarm, activeHigh := true : Contact }.level = true ∧
      calling.dc.state = .panel ∧ calling.alarms 7 ∧ ∀ n : InputId, n ≠ 7 → ¬ calling.alarms n) := by decide

/-! ## Hypotheses that hold somewhere: resets and headline results -/

theorem witness_TimeBellAndClockUnitResets :
    morning.hears (mgmt 0 []) ∧ (mgmt 0 []).length.toNat ≤ 30 ∧ (morning.circuit 2).inFlight = none ∧
      (morning.circuit 2).config.mode ≠ .display ∧
      ((morning.withCircuit 2 { minutes 0 with inFlight := some .neg }).circuit 2).inFlight ≠ none ∧
      ((morning.withCircuit 2 { minutes 0 with config := { CircuitConfig.initial with mode := .display } }).circuit
        2).config.mode = .display := by decide

/-- Slot 1 alone wants zone 0, and owns it. -/
theorem witness_ZoneAndAnnounceUnitResets :
    let s := (morning.withZone 0 (ramping (.slot 1) (.rank 4) 9 9 .steady)).withSlot 1 { live with granted := 1 }
    s.hears (mgmt 0 []) ∧ s.dc.state = .idle ∧ s.dc.seized = 0 ∧ (∀ z : Zone, (s.zone z).releasing = false) ∧
      (∀ n : SlotId, ¬ s.WantsZone 1 n) ∧ (s.zone 0).enabled = true ∧ s.WantsZone 0 1 ∧
      (∀ m : SlotId, m ≠ 1 → ¬ s.WantsZone 0 m) ∧ (s.slot 1).state ≠ .free ∧ (s.zone 0).owner = .slot 1 ∧
      0 < (s.zone 0).gain ∧ (s.zone 0).claimant = none := by decide

/-- IDLE, SOUNDING, CLEARING, and PANEL with its alarm standing and without. -/
theorem witness_DrillAndInputUnitResets :
    let calling : State := panel.withInput 7 { Contact.initial with function := .panelAlarm, level := false }
    (∀ s ∈ [morning, sounding, clearing 5, panel, calling], s.hears (mgmt 0 [])) ∧
      (morning.dc.state = .idle ∧ morning.dc.openRecord = none) ∧
      (sounding.dc.state = .sounding ∧ sounding.dc.openRecord = some 0 ∧ sounding.dc.ring = record :: []) ∧
      ((clearing 5).dc.state = .clearing ∧ (clearing 5).dc.openRecord = none ∧
        (clearing 5).dc.ring = { record with outcome := .cleared } :: []) ∧
      (panel.dc.state = .panel ∧ panel.dc.openRecord = none ∧ panel.dc.panelStart = some (0 - 5, none)) ∧
      (∀ n : InputId, ¬ sounding.alarms n) ∧ calling.alarms 7 ∧ (∀ m : InputId, m < 7 → ¬ calling.alarms m) := by decide

/-- SOUNDING, IDLE and PANEL; an impulse circuit with an impulse in flight and without, and a display circuit; addressed here
and broadcast. -/
theorem witness_StationResetClears :
    let flying := morning.withCircuit 2 { minutes 494 with inFlight := some .neg }
    let display := morning.withCircuit 2
      { minutes 0 with config := { CircuitConfig.initial with mode := .display } }
    (∀ s ∈ [sounding, morning, panel, flying, display],
      s.hears (mgmt 0 []) ∧ s.hears { mgmt 0 [] with destination := 63 }) ∧ (mgmt 0 []).length.toNat ≤ 30 ∧
      sounding.dc.state = .sounding ∧ sounding.dc.openRecord = some 0 ∧ sounding.dc.ring = record :: [] ∧
      morning.dc.state = .idle ∧ morning.dc.openRecord = none ∧
      (panel.dc.state = .panel ∧ panel.dc.panelStart = some (0 - 5, none) ∧ panel.dc.openRecord = none) ∧
      (flying.circuit 2).inFlight ≠ none ∧ ((display.circuit 2).inFlight = none ∧
        (display.circuit 2).config.mode = .display) ∧ (morning.circuit 0).inFlight = none ∧
      (morning.circuit 0).config.mode ≠ .display := by decide

theorem witness_CellsReadBack :
    (Instr.beacon (beacon true 200 2 29700012)).wellFormed = true ∧
      cellOf (.beacon (beacon true 200 2 29700012)) = some (beaconCell (beacon true 200 2 29700012)) := ⟨rfl, rfl⟩

/-- The state after reset with a tick in its queue. -/
def waiting : State := { State.reset with pending := [.tick (.whole 0xFF)] }

/-- A SET_DIAL waits, and a tick's advance at which a dial moves on. -/
def dialled : State := { morning with pending := [.setDial 5 (mgmt 4 [2, 2, 207, 2])] }

def moving : State := owing ((locked 200 2 29699999 0 37).withCircuit 2 (minutes 494))

theorem morning_mark : ∀ h ∈ morning.bs.mark, morning.tb.now.instant.later h = false ∧ (h.day - 200).toNat < 32768 := by
  decide

theorem witness_StepKeepsTimeLaws :
    morning.tb.Ok ∧ morning.MarkLaw ∧ (morning.tb.now.day - 200).toNat < 32768 ∧ (∃ t, step waiting = .next t) ∧
      (∃ t, step dialled = .next t) ∧ cellOf (.setDial 5 (mgmt 4 [2, 2, 207, 2])) =
        cellOf (.mgmtForward 5 10 (mgmt 4 [2, 2, 207, 2])) ∧
      step { moving with pending := [.tick .advance] } = .next (after (.tick .advance) moving) :=
  ⟨by decide, fun h _ e => (morning_mark h e).1, by decide, ⟨_, rfl⟩, ⟨_, rfl⟩, rfl, rfl⟩

theorem witness_StepKeepsTimeLaws_circuit :
    (dialled.circuit 2).Ok ∧ (moving.circuit 2).Ok ∧ (minutes 494).config.mode.positions = some 720 ∧
      (moving.circuit 2).inFlight = none ∧
      ((after (.tick .advance) moving).circuit 2).retained = { dial := 495, polarity := .pos } := by decide

theorem witness_StepKeepsFeedLaw : waiting.FeedLaw ∧ waiting.SlotLaw ∧ ∃ t, step waiting = .next t :=
  ⟨⟨by decide, by decide, by decide, by decide⟩,
    ⟨by decide, by decide, by decide, by decide, by decide, by decide, by decide, by decide⟩, _, rfl⟩

theorem witness_StepKeepsDrillLaws :
    waiting.DrillLaw ∧ waiting.PanelLaw ∧ waiting.FeedLaw ∧ waiting.SeizureLaw ∧ ∃ t, step waiting = .next t := by
  refine ⟨⟨⟨by decide, by decide⟩, by decide, by decide, by decide, by decide, by decide, by decide, by decide⟩, by decide,
    ⟨by decide, by decide, by decide, by decide⟩,
    ⟨by decide, by decide, by decide, fun z => ?_, by decide, by decide⟩, _, rfl⟩
  rw [show (waiting.zone z).bellOwner = .none by revert z; decide]
  revert z
  decide

/-- A drill that sounds with its zones held, and the same silenced with one of them taken. -/
theorem witness_StepKeepsDrillLaws_gripped :
    (∀ z : Zone, memSet z gripped.dc.seized = true → gripped.DrillHolds z) ∧ gripped.dc.seized = gripped.seizedNow ∧
      (∀ z : Zone, (gripped.zone z).owner = .drill → memSet z gripped.dc.seized = true) := by decide

theorem witness_StepKeepsQueueLaw : waiting.QueueLaw ∧ ∃ t, step waiting = .next t :=
  ⟨⟨by decide, by decide, by decide, by decide, by decide⟩, _, rfl⟩

end Sys2Proof.Tests
end

/-! The compensated master time of a beacon (R8). -/

namespace Sys2Proof.Machine

/-! ## The compensation -/

/-- The delay compensation δ is a 16-bit number of µs, so c is at most 66 ms. -/
theorem TimeBase.compensation_le (tb : TimeBase) (hδ : tb.delayComp ≤ 65535) : tb.compensation ≤ 66 := by
  unfold TimeBase.compensation
  omega

/-! ## The weekday -/

/-- The weekday after any weekday byte, modulo 7. -/
theorem weekday_succ_val (w : Nat) : (Fin.ofNat 7 w + 1).val = (w + 1) % 7 := by
  rw [Fin.val_add, Fin.val_ofNat, Fin.val_one, Nat.mod_add_mod]

/-! ## The master time -/

section
variable (tb : TimeBase) (c : BeaconCell)

/-- Below the end of the day the compensation is added to the ms alone. -/
theorem TimeBase.masterTime_of_lt (h : c.ms.toNat + tb.compensation < dayMs) :
    tb.masterTime c =
      { day := c.day, weekday := Fin.ofNat 7 c.weekday.toNat, ms := c.ms.toNat + tb.compensation } := by
  obtain ⟨-, hplus⟩ | ⟨hcarry, -⟩ := CampusTime.plus_cases ⟨c.day, Fin.ofNat 7 c.weekday.toNat, c.ms.toNat⟩ tb.compensation
  · exact hplus
  · exact absurd hcarry (Nat.not_le.mpr h)

/-- At the end of the day or beyond, one day is carried. -/
theorem TimeBase.masterTime_of_le (h : dayMs ≤ c.ms.toNat + tb.compensation) :
    tb.masterTime c =
      { day := c.day + 1, weekday := Fin.ofNat 7 c.weekday.toNat + 1, ms := c.ms.toNat + tb.compensation - dayMs } := by
  obtain ⟨hstays, -⟩ | ⟨-, hplus⟩ := CampusTime.plus_cases ⟨c.day, Fin.ofNat 7 c.weekday.toNat, c.ms.toNat⟩ tb.compensation
  · exact absurd h (Nat.not_le.mpr hstays)
  · exact hplus

end

/-- Settles O8, by the two cases of the sum: it carries a day or stays below it. -/
theorem beaconCompensation : Obligations.BeaconCompensation := by
  intro tb c _ hweekday hδ
  refine ⟨tb.compensation_le hδ, fun hcarry => ?carries, fun hstays => ?stays⟩
  case carries =>
    rw [tb.masterTime_of_le c hcarry]
    exact ⟨rfl, rfl, weekday_succ_val c.weekday.toNat⟩
  case stays =>
    rw [tb.masterTime_of_lt c hstays]
    exact ⟨rfl, rfl, Nat.mod_eq_of_lt (Nat.lt_succ_of_le hweekday)⟩

end Sys2Proof.Machine

/-! The beginning of replay under each policy, and the age of a deferred entry (R60 to R63). -/

namespace Sys2Proof.Machine

/-! ## Saturating counts -/

@[simp] theorem satAdd_zero (c : Count) : satAdd c 0 = c := by
  unfold satAdd
  bv_omega

theorem satAdd_satAdd (c : Count) (m n : Nat) : satAdd (satAdd c m) n = satAdd c (m + n) := by
  unfold satAdd
  bv_omega

/-! ## The age of an entry (R60) -/

theorem entryAge_absent (now : Option Instant) (e : Deferred) (h : now = none ∨ e.due = none) : entryAge now e = 0 := by
  obtain rfl | hdue := h
  · rfl
  · cases now <;> simp [entryAge, hdue]

theorem entryAge_due (n d : Instant) (e : Deferred) (h : e.due = some d) :
    (entryAge (some n) e : Int) = max 0 ((n.day - d.day).toInt * 86400000 + ((n.ms : Int) - (d.ms : Int))) := by
  simp only [entryAge, h, Instant.since, dayDistance, dayMs]
  omega

/-! ## Due instants in order

Within half the day-number circle from a base day, instants are ordered by their days from the base and then by ms; an
absent due instant stands above them all (R62). -/

/-- An instant as its days from a base day, and its ms. -/
def Instant.key (base : BitVec 16) (x : Instant) : ℕ ×ₗ ℕ := toLex ((x.day - base).toNat, x.ms)

/-- The due instant of an entry among the others of its queue. -/
def Deferred.key (base : BitVec 16) (e : Deferred) : WithTop (ℕ ×ₗ ℕ) := e.due.map (Instant.key base)

theorem Deferred.key_absent (base : BitVec 16) {e : Deferred} (h : e.due = none) : e.key base = ⊤ := by
  simp only [Deferred.key, h]
  rfl

theorem Deferred.key_due (base : BitVec 16) {e : Deferred} {d : Instant} (h : e.due = some d) :
    e.key base = ((d.key base : ℕ ×ₗ ℕ) : WithTop (ℕ ×ₗ ℕ)) := by
  simp only [Deferred.key, h]
  rfl

/-- The due instant of an entry, where it has one, lies within half the day-number circle from a base day. -/
def Deferred.InHalf (base : BitVec 16) (e : Deferred) : Prop :=
  ∀ d, e.due = some d → (d.day - base).toNat < 32768

/-- The signed distance of two days in one half of the circle is the difference of their distances from its base. -/
theorem dayDistance_of_half (base d e : BitVec 16) (hd : (d - base).toNat < 32768) (he : (e - base).toNat < 32768) :
    dayDistance d e = ((e - base).toNat : Int) - ((d - base).toNat : Int) := by
  unfold dayDistance
  rw [BitVec.toInt_eq_toNat_cond]
  bv_omega

theorem Instant.later_iff_key (base : BitVec 16) (x y : Instant) (hx : (x.day - base).toNat < 32768)
    (hy : (y.day - base).toNat < 32768) : x.later y = true ↔ y.key base < x.key base := by
  simp only [Instant.later, Instant.key, dayDistance_of_half base y.day x.day hy hx, Prod.Lex.toLex_lt_toLex,
    Bool.or_eq_true, Bool.and_eq_true, decide_eq_true_eq, beq_iff_eq]
  omega

/-- The rank of R62 is the order of the due instants. -/
theorem rankAtLeast_iff_key (base : BitVec 16) (e b : Deferred) (he : e.InHalf base) (hb : b.InHalf base) :
    rankAtLeast e b = true ↔ b.key base ≤ e.key base := by
  unfold rankAtLeast
  cases hed : e.due with
  | none => simp [Deferred.key_absent base hed]
  | some d =>
    cases hbd : b.due with
    | none => simp [Deferred.key_absent base hbd, Deferred.key_due base hed]
    | some x =>
      rw [Deferred.key_due base hed, Deferred.key_due base hbd, WithTop.coe_le_coe, ← not_lt,
        ← Instant.later_iff_key base x d (hb x hbd) (he d hed)]
      simp

/-! ## The latest entry of a zone (R62) -/

/-- The entry at position k of a queue outranks the one at position j, or is that one: no entry before it is later, and
every entry behind it is earlier. -/
def Outranks (base : BitVec 16) (k : Nat) (e : Deferred) (j : Nat) (f : Deferred) : Prop :=
  if j ≤ k then f.key base ≤ e.key base else f.key base < e.key base

/-- The same said of the due instants themselves: an absent one is later than any, and a tie goes to the newer (R62). -/
def OutranksByDue (k : Nat) (e : Deferred) (j : Nat) (f : Deferred) : Prop :=
  match e.due, f.due with
  | none, none => j ≤ k
  | none, some _ => True
  | some _, none => False
  | some d, some x => if j ≤ k then x.later d = false else d.later x = true

theorem outranks_iff_byDue (base : BitVec 16) (k j : Nat) (e f : Deferred) (he : e.InHalf base) (hf : f.InHalf base) :
    Outranks base k e j f ↔ OutranksByDue k e j f := by
  unfold Outranks OutranksByDue
  cases hed : e.due with
  | none =>
    cases hfd : f.due with
    | none => simp [Deferred.key_absent base hed, Deferred.key_absent base hfd]
    | some x => simp [Deferred.key_absent base hed, Deferred.key_due base hfd]
  | some d =>
    cases hfd : f.due with
    | none => simp [Deferred.key_absent base hfd, Deferred.key_due base hed]
    | some x =>
      have hx := hf x hfd
      have hd := he d hed
      simp only [Deferred.key_due base hed, Deferred.key_due base hfd, WithTop.coe_le_coe, WithTop.coe_lt_coe,
        ← Instant.later_iff_key base d x hd hx, ← not_lt (b := x.key base), ← Instant.later_iff_key base x d hx hd,
        Bool.not_eq_true]

/-- Of two entries that outrank one another only one position is left. -/
theorem Outranks.antisymm {base : BitVec 16} {k j : Nat} {e f : Deferred} (a : Outranks base k e j f)
    (b : Outranks base j f k e) : k = j := by
  unfold Outranks at a b
  rcases lt_trichotomy k j with h | h | h
  · rw [if_neg (Nat.not_le.mpr h)] at a
    rw [if_pos h.le] at b
    exact absurd b a.not_ge
  · exact h
  · rw [if_pos h.le] at a
    rw [if_neg (Nat.not_le.mpr h)] at b
    exact absurd a b.not_ge

/-- The entry at position k holds zone z and outranks every entry of the queue that holds it. -/
structure LatestAt (base : BitVec 16) (z : Zone) (queue : List Deferred) (k : Nat) (e : Deferred) : Prop where
  entry : queue[k]? = some e
  holds : memSet z e.zones = true
  outranks : ∀ j f, queue[j]? = some f → memSet z f.zones = true → Outranks base k e j f

/-- A choice for zone z among a queue: its latest entry, or none where no entry holds the zone. -/
def ChosenFrom (base : BitVec 16) (z : Zone) (queue : List Deferred) : Option (Nat × Deferred) → Prop
  | none => ∀ f ∈ queue, memSet z f.zones = false
  | some (k, e) => LatestAt base z queue k e

/-- A position of a queue with one entry more is one of the queue, or the last. -/
theorem getElem?_concat_cases {queue : List Deferred} {e f : Deferred} {j : Nat} (h : (queue ++ [e])[j]? = some f) :
    queue[j]? = some f ∧ j < queue.length ∨ j = queue.length ∧ f = e := by
  obtain ⟨hj, rfl⟩ := List.getElem?_eq_some_iff.mp h
  rcases Nat.lt_or_ge j queue.length with hlt | hge
  · simp [hlt]
  · right
    simp only [List.length_append, List.length_singleton] at hj
    obtain rfl : j = queue.length := by omega
    simp

/-- An entry that does not hold the zone, or that the latest outranks, leaves the latest what it was. -/
theorem LatestAt.concat_old {base : BitVec 16} {z : Zone} {queue : List Deferred} {k : Nat} {b : Deferred}
    (h : LatestAt base z queue k b) (e : Deferred) (he : memSet z e.zones = true → e.key base < b.key base) :
    LatestAt base z (queue ++ [e]) k b := by
  have hk : k < queue.length := (List.getElem?_eq_some_iff.mp h.entry).1
  refine ⟨by rw [List.getElem?_append_left hk, h.entry], h.holds, fun j f hf hz => ?_⟩
  obtain ⟨hold, -⟩ | ⟨rfl, rfl⟩ := getElem?_concat_cases hf
  · exact h.outranks j f hold hz
  · rw [Outranks, if_neg (Nat.not_le.mpr hk)]
    exact he hz

/-- An entry that holds the zone, and is no earlier than any before it that does, becomes the latest. -/
theorem latestAt_concat_new {base : BitVec 16} {z : Zone} {queue : List Deferred} {e : Deferred}
    (hz : memSet z e.zones = true) (h : ∀ f ∈ queue, memSet z f.zones = true → f.key base ≤ e.key base) :
    LatestAt base z (queue ++ [e]) queue.length e := by
  refine ⟨by simp, hz, fun j f hf hfz => ?_⟩
  obtain ⟨hold, hj⟩ | ⟨rfl, rfl⟩ := getElem?_concat_cases hf
  · rw [Outranks, if_pos hj.le]
    exact h f (List.mem_of_getElem? hold) hfz
  · rw [Outranks, if_pos le_rfl]

/-- The latest of a queue is no earlier than any entry that holds the zone. -/
theorem LatestAt.key_le {base : BitVec 16} {z : Zone} {queue : List Deferred} {k : Nat} {b f : Deferred}
    (h : LatestAt base z queue k b) (hf : f ∈ queue) (hz : memSet z f.zones = true) : f.key base ≤ b.key base := by
  obtain ⟨j, hj⟩ := List.getElem?_of_mem hf
  have ho := h.outranks j f hj hz
  unfold Outranks at ho
  split at ho
  · exact ho
  · exact ho.le

/-- One more entry examined keeps the choice that of the entries examined. -/
theorem chooseLatest_keeps (base : BitVec 16) (z : Zone) (rest : List Deferred) :
    ∀ (best : Option (Nat × Deferred)) (seen : List Deferred), (∀ f ∈ seen ++ rest, f.InHalf base) →
      ChosenFrom base z seen best → ChosenFrom base z (seen ++ rest) (chooseLatest z best seen.length rest) := by
  induction rest with
  | nil => intro best seen _ h; simpa [chooseLatest] using h
  | cons e rest ih =>
    intro best seen hhalf h
    have he : e.InHalf base := hhalf e (by simp)
    have next : ∀ best', ChosenFrom base z (seen ++ [e]) best' →
        ChosenFrom base z (seen ++ e :: rest) (chooseLatest z best' (seen.length + 1) rest) := fun best' h' => by
      simpa using ih best' (seen ++ [e]) (by simpa using hhalf) h'
    simp only [chooseLatest]
    apply next
    cases hz : memSet z e.zones with
    | false =>
      cases best with
      | none =>
        intro f hf
        obtain hold | hnew := List.mem_append.mp hf
        · exact h f hold
        · rwa [List.mem_singleton.mp hnew]
      | some kb => exact LatestAt.concat_old h e (by simp [hz])
    | true =>
      cases best with
      | none => exact latestAt_concat_new hz fun f hf hfz => absurd hfz (by simp [h f hf])
      | some kb =>
        obtain ⟨k, b⟩ := kb
        have hlatest : LatestAt base z seen k b := h
        have hb : b.InHalf base := hhalf b (List.mem_append_left _ (List.mem_of_getElem? hlatest.entry))
        have hrank := rankAtLeast_iff_key base e b he hb
        by_cases hr : rankAtLeast e b = true
        · simp only [Bool.true_and, hr, if_true]
          exact latestAt_concat_new hz fun f hf hfz => (hlatest.key_le hf hfz).trans (hrank.mp hr)
        · simp only [Bool.true_and, hr]
          exact hlatest.concat_old e fun _ => not_le.mp (mt hrank.mpr hr)

/-- The choice of R62 falls on the latest entry, and on no other. -/
theorem chooseLatest_eq_some_iff (base : BitVec 16) (z : Zone) (queue : List Deferred) (k : Nat) (e : Deferred)
    (hhalf : ∀ f ∈ queue, f.InHalf base) : chooseLatest z none 0 queue = some (k, e) ↔ LatestAt base z queue k e := by
  have hchosen : ChosenFrom base z queue (chooseLatest z none 0 queue) :=
    chooseLatest_keeps base z queue none [] hhalf (by simp [ChosenFrom])
  constructor
  · intro h
    rwa [h] at hchosen
  · intro h
    cases hc : chooseLatest z none 0 queue with
    | none =>
      rw [hc] at hchosen
      exact absurd h.holds (by simp [hchosen e (List.mem_of_getElem? h.entry)])
    | some ib =>
      obtain ⟨i, b⟩ := ib
      rw [hc] at hchosen
      have hlatest : LatestAt base z queue i b := hchosen
      obtain rfl : i = k :=
        (hlatest.outranks k e h.entry h.holds).antisymm (h.outranks i b hlatest.entry hlatest.holds)
      rw [Option.some_inj.mp (hlatest.entry.symm.trans h.entry)]

/-- A zone rings position k exactly when it is enabled and the position chosen for it is k, within the age limit. -/
theorem State.mem_latestZones (s : State) (z : Zone) (k : Nat) :
    memSet z (s.latestZones k) = true ↔
      (s.zone z).enabled = true ∧ ∃ e, chooseLatest z none 0 s.bs.deferred = some (k, e) ∧
        entryAge s.tb.now? e ≤ s.bs.replayAge * 1000 := by
  rw [State.latestZones, memSet_zonesWhere]
  cases chooseLatest z none 0 s.bs.deferred with
  | none => simp
  | some ie =>
    obtain ⟨i, e⟩ := ie
    simp only [Bool.and_eq_true, beq_iff_eq, decide_eq_true_eq, Option.some.injEq, Prod.mk.injEq]
    constructor
    · rintro ⟨hen, rfl, hage⟩
      exact ⟨hen, e, ⟨rfl, rfl⟩, hage⟩
    · rintro ⟨hen, _, ⟨rfl, rfl⟩, hage⟩
      exact ⟨hen, rfl, hage⟩

/-- A zone rings at most one position of the queue. -/
theorem State.latestZones_unique (s : State) {z : Zone} {j k : Nat} (hj : memSet z (s.latestZones j) = true)
    (hk : memSet z (s.latestZones k) = true) : j = k := by
  obtain ⟨-, e, he, -⟩ := (s.mem_latestZones z j).mp hj
  obtain ⟨-, f, hf, -⟩ := (s.mem_latestZones z k).mp hk
  exact (Prod.mk.inj (Option.some_inj.mp (he.symm.trans hf))).1

/-- A zone rings the entry at position k exactly when it is enabled, the entry is its latest, and the entry is within the
age limit (R62). -/
theorem State.mem_latestZones_iff_latestAt (s : State) (z : Zone) (k : Nat) (e : Deferred) (base : BitVec 16)
    (hhalf : ∀ f ∈ s.bs.deferred, f.InHalf base) (he : s.bs.deferred[k]? = some e) :
    memSet z (s.latestZones k) = true ↔
      (s.zone z).enabled = true ∧ LatestAt base z s.bs.deferred k e ∧
        entryAge s.tb.now? e ≤ s.bs.replayAge * 1000 := by
  simp only [s.mem_latestZones z k, chooseLatest_eq_some_iff base z _ k _ hhalf]
  constructor
  · rintro ⟨hen, f, hf, hage⟩
    obtain rfl : f = e := Option.some_inj.mp (hf.entry.symm.trans he)
    exact ⟨hen, hf, hage⟩
  · rintro ⟨hen, hf, hage⟩
    exact ⟨hen, e, hf, hage⟩

/-! ## A scheduled chime's claim on a zone (R80) -/

/-- A zone record after a scheduled chime's claim until a tick count, by the table of R80. -/
def ZoneRec.chimeClaim (slot : SlotId → Slot) (stop : Tick) (r : ZoneRec) : ZoneRec :=
  if r.ramp = .down then
    match r.claimant with
    | some (.slot n) => if (slot n).priority ≤ 2 then r.chimePending stop else r
    | some .chime => r
    | none => if r.releasing then r.chimePending stop else r
  else
    match r.owner with
    | .none =>
      ZoneRec.fromZero
        { r with owner := .chime, cls := .rank 3, releasing := false, claimant := none, chimeEnd := some stop,
                 chimeClaimed := some (stop - chimeLength), drillSource := none }
        (min r.defaultGain r.maxGain)
    | .slot _ => if r.cls.number ≤ 2 then r.chimePending stop else r
    | .chime | .drill => r

/-- A granted zone is the scheduled chime's from gain 0, aimed at its default gain (R76, R80). -/
theorem Floor.grantChime_zone (z : Zone) (f : Floor) :
    (f.grantChime z).zone z =
      ZoneRec.fromZero
        { f.zone z with owner := .chime, cls := .rank 3, releasing := false, claimant := none,
                        chimeClaimed := (f.zone z).chimeEnd.map (· - chimeLength), drillSource := none }
        (min (f.zone z).defaultGain (f.zone z).maxGain) := by
  simp only [Floor.grantChime, Floor.retarget, Floor.targetOf, Floor.zone_setZone, if_true, Bool.false_eq_true, if_false,
    ZoneRec.aim, ZoneRec.fromZero]
  split_ifs <;> rfl

/-- On a ramp that runs DOWN_FOR_HANDOVER a new pending chime leaves the ramp and its cadence. -/
theorem ZoneRec.chimePending_down (r : ZoneRec) (stop : Tick) (h : r.ramp = .down) :
    r.chimePending stop = { r with claimant := some .chime, chimeEnd := some stop } := by
  simp [ZoneRec.chimePending, h]

/-- From any other ramp a pending chime turns the gain down (R73). -/
theorem ZoneRec.chimePending_turnDown (r : ZoneRec) (stop : Tick) :
    { r.turnDown with claimant := some .chime, chimeEnd := some stop } = r.chimePending stop := by
  unfold ZoneRec.turnDown ZoneRec.chimePending
  cases r.ramp <;> rfl

theorem Floor.chimeClaimOn_zone (stop : Tick) (z : Zone) (f : Floor) :
    (f.chimeClaimOn stop z).zone z = (f.zone z).chimeClaim f.slot stop := by
  unfold Floor.chimeClaimOn ZoneRec.chimeClaim
  by_cases hramp : (f.zone z).ramp = .down
  · have hpend : (f.setZone z fun r => { r with claimant := some .chime, chimeEnd := some stop }).zone z =
        (f.zone z).chimePending stop := by
      simp [ZoneRec.chimePending_down _ _ hramp]
    simp only [hramp, if_true]
    cases (f.zone z).claimant with
    | none => dsimp only; split; exacts [hpend, rfl]
    | some c =>
      cases c with
      | slot n => dsimp only; split; exacts [hpend, rfl]
      | chime => rfl
  · simp only [hramp, if_false]
    cases howner : (f.zone z).owner with
    | none => simp [Floor.grantChime_zone, ZoneRec.fromZero]
    | slot n => dsimp only; split <;> simp [ZoneRec.chimePending_turnDown]
    | chime => rfl
    | drill => rfl

@[simp] theorem Floor.chimeClaimOn_bo (stop : Tick) (z : Zone) (f : Floor) : (f.chimeClaimOn stop z).bo = f.bo :=
  (Floor.chimeClaimOn_only stop z f).bo

@[simp] theorem Floor.chimeClaimOn_au (stop : Tick) (z : Zone) (f : Floor) : (f.chimeClaimOn stop z).au = f.au := by
  unfold Floor.chimeClaimOn
  dsimp only
  repeat' split
  all_goals rfl

theorem Floor.chimeClaimOn_slot (stop : Tick) (z : Zone) (f : Floor) : (f.chimeClaimOn stop z).slot = f.slot := by
  funext n
  simp only [Floor.slot, Floor.chimeClaimOn_au]

@[simp] theorem Floor.chimeClaim_bo (now : Tick) (zones : ZoneSet) (f : Floor) : (f.chimeClaim now zones).bo = f.bo :=
  forZones_same Floor.bo _ (fun z s => s.chimeClaimOn_bo _ z) zones f

@[simp] theorem Floor.chimeClaim_au (now : Tick) (zones : ZoneSet) (f : Floor) : (f.chimeClaim now zones).au = f.au :=
  forZones_same Floor.au _ (fun z s => s.chimeClaimOn_au _ z) zones f

/-- A scheduled chime claims each zone of its set, by the table of R80, and touches no other zone. -/
theorem Floor.chimeClaim_each (now : Tick) (zones : ZoneSet) (f : Floor) (z : Zone) :
    (f.chimeClaim now zones).zone z =
      if memSet z zones then (f.zone z).chimeClaim f.slot (now + chimeLength) else f.zone z :=
  forZones_each (fun g : Floor => g.slot = f.slot) (fun z g => g.zone z)
    (fun _ r => r.chimeClaim f.slot (now + chimeLength)) (Floor.chimeClaimOn (now + chimeLength))
    (fun z g hg => (g.chimeClaimOn_slot _ z).trans hg)
    (fun z g hg => by rw [Floor.chimeClaimOn_zone, hg])
    (fun y z g _ ne => (Floor.chimeClaimOn_only _ z g).zone y ne) zones f rfl z

/-! ## A bell on one zone (R23, R48, R80) -/

/-- Between two states only the bell sequencer, the players and the zone records may differ. -/
structure State.SoundFrame (s t : State) : Prop where
  blocks : t = { s with bs := t.bs, bo := t.bo, za := t.za }
  patterns : t.bo.patterns = s.bo.patterns

/-- Between two states a bell sounded on one zone, as a pattern or as a scheduled chime. -/
structure State.SoundsAt (s t : State) (sound : Sound) (o : Origin) (z : Zone) : Prop where
  pattern : ∀ p, sound = .pattern p → s.StartsAt t z p o
  chime : sound = .chime → s.ChimesAt t z

section
variable {s t u : State} {sound : Sound} {o : Origin} {z : Zone}

theorem State.SoundFrame.refl (s : State) : s.SoundFrame s := ⟨rfl, rfl⟩

theorem State.SoundFrame.trans (a : s.SoundFrame t) (b : t.SoundFrame u) : s.SoundFrame u :=
  ⟨by rw [b.blocks, a.blocks], b.patterns.trans a.patterns⟩

theorem State.SoundFrame.onBs (s : State) (g : BellSequencer → BellSequencer) : s.SoundFrame (s.onBs g) := ⟨rfl, rfl⟩

theorem State.KeepsZone.trans (a : s.KeepsZone t z) (b : t.KeepsZone u z) : s.KeepsZone u z :=
  ⟨b.1.trans a.1, b.2.trans a.2⟩

/-- A bell that sounded on a zone still stands there while the zone is kept. -/
theorem State.SoundsAt.then_keeps (a : s.SoundsAt t sound o z) (b : t.KeepsZone u z) : s.SoundsAt u sound o z := by
  obtain ⟨hzone, hplayer⟩ := b
  refine ⟨fun p hp => ?_, fun hc => ?_⟩
  · have h := a.pattern p hp
    simpa only [State.StartsAt, State.KeepsZone, hzone, hplayer] using h
  · have h := a.chime hc
    simpa only [State.ChimesAt, hzone, hplayer] using h

/-- What a bell does to a zone does not depend on what was done to the others before. -/
theorem State.SoundsAt.of_keeps (frame : s.SoundFrame t) (a : s.KeepsZone t z) (b : t.SoundsAt u sound o z) :
    s.SoundsAt u sound o z := by
  obtain ⟨hzone, hplayer⟩ := a
  have htb : t.tb = s.tb := by rw [frame.blocks]
  have hslot : t.slot = s.slot := by funext n; rw [frame.blocks]; rfl
  refine ⟨fun p hp => ?_, fun hc => ?_⟩
  · have h := b.pattern p hp
    simpa only [State.StartsAt, State.KeepsZone, hzone, hplayer, frame.patterns] using h
  · have h := b.chime hc
    simpa only [State.ChimesAt, hzone, hplayer, htb, hslot] using h

end

/-- A zone whose record took a scheduled chime's claim, and whose player stayed, chimes by the table of R80. -/
theorem State.chimesAt_of_chimeClaim (s t : State) (z : Zone) (hplayer : t.bo.players[z] = s.bo.players[z])
    (hzone : t.zone z = (s.zone z).chimeClaim s.slot (s.tb.tick + chimeLength)) : s.ChimesAt t z := by
  refine ⟨hplayer, ?_⟩
  rintro r stop rfl rfl
  have hlength : s.tb.tick + 1000 - chimeLength = s.tb.tick := by
    unfold chimeLength
    bv_omega
  change t.zone z = (s.zone z).chimeClaim s.slot (s.tb.tick + 1000) at hzone
  rw [hzone]
  unfold ZoneRec.chimeClaim
  refine ⟨fun hr ho => ?_, fun n k hr ho hc => ?_, fun hr ho => ?_, fun n hr hc => ?_, fun hr hc => ?_, fun hr hc => ?_⟩
  · simp only [hr, if_false, ho, hlength]
  · simp only [hr, if_false, ho, hc, OwnerClass.number]
  · rcases ho with ho | ho <;> simp only [hr, if_false, ho]
  · simp only [hr, if_true, hc, State.slot]
  · simp only [hr, if_true, hc]
  · simp only [hr, if_true, hc]

section
variable (s : State) (sound : Sound) (zones : ZoneSet) (o : Origin) (z : Zone)

theorem State.onFloor_frame (g : Floor → Floor) (hau : (g s.floor).au = s.au)
    (hpatterns : (g s.floor).bo.patterns = s.bo.patterns) : s.SoundFrame (s.onFloor g) :=
  ⟨by simp only [State.onFloor, State.setFloor, hau], hpatterns⟩

theorem State.soundOn_frame : s.SoundFrame (s.soundOn sound zones o) := by
  cases sound with
  | pattern p => exact s.onFloor_frame _ (Floor.start_au ..) (Floor.start_patterns ..)
  | chime => exact s.onFloor_frame _ (Floor.chimeClaim_au ..) (congrArg (·.patterns) (Floor.chimeClaim_bo ..))

theorem State.soundOn_soundsAt (hz : memSet z zones = true) :
    s.SoundsAt (s.soundOn sound zones o) sound o z := by
  cases sound with
  | pattern p =>
    refine ⟨fun q hq => ?_, nofun⟩
    obtain rfl := Sound.pattern.inj hq
    have h := Floor.start_each p zones o s.floor z
    refine ⟨fun hd => ?_, fun hd => ?_⟩
    · rw [if_neg fun c => c.2 hd] at h
      exact ⟨congrArg Prod.snd h, congrArg Prod.fst h⟩
    · rw [if_pos ⟨hz, hd⟩] at h
      exact ⟨congrArg Prod.fst h, congrArg Prod.snd h⟩
  | chime =>
    refine ⟨nofun, fun _ => s.chimesAt_of_chimeClaim _ z ?_ ?_⟩
    · exact congrArg (·.players[z]) (Floor.chimeClaim_bo s.tb.tick zones s.floor)
    · exact (Floor.chimeClaim_each s.tb.tick zones s.floor z).trans (if_pos hz)

theorem State.soundOn_keepsZone (hz : memSet z zones = false) : s.KeepsZone (s.soundOn sound zones o) z := by
  cases sound with
  | pattern p =>
    have h := Floor.start_each p zones o s.floor z
    rw [if_neg fun c => absurd c.1 (by simp [hz])] at h
    exact ⟨congrArg Prod.snd h, congrArg Prod.fst h⟩
  | chime =>
    refine ⟨?_, congrArg (·.players[z]) (Floor.chimeClaim_bo s.tb.tick zones s.floor)⟩
    exact (Floor.chimeClaim_each s.tb.tick zones s.floor z).trans (if_neg (by simp [hz]))

/-- A bell sounds on the enabled zones of its set (R63). -/
theorem State.soundOn_soundsOn : s.SoundsOn (s.soundOn sound (zones &&& s.enabledZones) o) sound zones o := by
  have hmem : ∀ z, memSet z (zones &&& s.enabledZones) = (memSet z zones && (s.zone z).enabled) := fun z => by
    rw [memSet_and, State.enabledZones, memSet_zonesWhere]
  refine ⟨(s.soundOn_frame ..).patterns, fun z => ⟨fun p hp hz he => ?_, fun hc hz he => ?_, fun h => ?_⟩⟩
  · exact (s.soundOn_soundsAt sound _ o z (by simp [hmem, hz, he])).pattern p hp
  · exact (s.soundOn_soundsAt sound _ o z (by simp [hmem, hz, he])).chime hc
  · exact s.soundOn_keepsZone sound _ o z (by rcases h with h | h <;> simp [hmem, h])

end

/-! ## The burst of policy LATEST (R62) -/

/-- One action of the burst: an entry that won zones sounds there and counts as replayed, any other as discarded. -/
def State.burstStep (s : State) (p : Deferred × ZoneSet) : State :=
  if p.2 = 0 then s.onBs fun bs => { bs with replayDiscarded := satInc bs.replayDiscarded }
  else (s.soundOn p.1.sound p.2 p.1.origin).onBs fun bs => { bs with replayed := satInc bs.replayed }

theorem State.replayLatest_eq (s : State) :
    s.replayLatest = s.burst.foldl State.burstStep (s.onBs fun bs => { bs.clearMarker with deferred := [] }) := rfl

section
variable (s : State) (p : Deferred × ZoneSet) (z : Zone)

theorem State.burstStep_frame : s.SoundFrame (s.burstStep p) := by
  unfold State.burstStep
  split
  · exact State.SoundFrame.onBs ..
  · exact (s.soundOn_frame ..).trans (State.SoundFrame.onBs ..)

theorem State.burstStep_keepsZone (hz : memSet z p.2 = false) : s.KeepsZone (s.burstStep p) z := by
  unfold State.burstStep
  split
  · exact ⟨rfl, rfl⟩
  · exact s.soundOn_keepsZone p.1.sound p.2 p.1.origin z hz

theorem State.burstStep_soundsAt (hz : memSet z p.2 = true) : s.SoundsAt (s.burstStep p) p.1.sound p.1.origin z := by
  unfold State.burstStep
  split
  next h => exact absurd hz (by simp [h])
  next => exact (s.soundOn_soundsAt p.1.sound p.2 p.1.origin z hz).then_keeps ⟨rfl, rfl⟩

end

/-- A burst changes no more than its bells do. -/
theorem burst_frame (l : List (Deferred × ZoneSet)) (s : State) : s.SoundFrame (l.foldl State.burstStep s) :=
  walk_keeps s.SoundFrame _ (fun _ p h => h.trans (State.burstStep_frame _ p)) l s (State.SoundFrame.refl s)

/-- A zone that no entry won is kept. -/
theorem burst_keepsZone (z : Zone) (l : List (Deferred × ZoneSet)) (s : State) (h : ∀ p ∈ l, memSet z p.2 = false) :
    s.KeepsZone (l.foldl State.burstStep s) z := by
  induction l generalizing s with
  | nil => exact ⟨rfl, rfl⟩
  | cons p l ih =>
    rw [List.forall_mem_cons] at h
    exact (s.burstStep_keepsZone p z h.1).trans (ih _ h.2)

/-- Two actions of the burst have no zone in common. -/
def Apart (p q : Deferred × ZoneSet) : Prop := ∀ z, memSet z p.2 = true → memSet z q.2 = false

/-- Where no zone is won twice, each entry sounds on the zones it won. -/
theorem burst_soundsAt (z : Zone) (p : Deferred × ZoneSet) (hz : memSet z p.2 = true) (l : List (Deferred × ZoneSet))
    (s : State) (hl : l.Pairwise Apart) (hp : p ∈ l) :
    s.SoundsAt (l.foldl State.burstStep s) p.1.sound p.1.origin z := by
  induction l generalizing s with
  | nil => simp at hp
  | cons q l ih =>
    rw [List.pairwise_cons] at hl
    obtain ⟨hq, hl⟩ := hl
    obtain rfl | hp := List.mem_cons.mp hp
    · exact (s.burstStep_soundsAt p z hz).then_keeps (burst_keepsZone z l _ fun r hr => hq r hr z hz)
    · have hfree : memSet z q.2 = false := Bool.eq_false_iff.mpr fun h => absurd hz (by simp [hq p hp z h])
      exact (ih _ hl hp).of_keeps (s.burstStep_frame q) (s.burstStep_keepsZone q z hfree)

/-- Entries counted as replayed and as discarded. -/
def BellSequencer.counted (bs : BellSequencer) (replayed discarded : Nat) : BellSequencer :=
  { bs with
    replayed := satAdd bs.replayed replayed, replayDiscarded := satAdd bs.replayDiscarded discarded }

theorem BellSequencer.counted_zero (bs : BellSequencer) : bs.counted 0 0 = bs := by
  simp only [BellSequencer.counted, satAdd_zero]

theorem BellSequencer.counted_counted (bs : BellSequencer) (m n m' n' : Nat) :
    (bs.counted m n).counted m' n' = bs.counted (m + m') (n + n') := by
  simp only [BellSequencer.counted, satAdd_satAdd]

theorem State.burstStep_bs (s : State) (p : Deferred × ZoneSet) :
    (s.burstStep p).bs = if p.2 = 0 then s.bs.counted 0 1 else s.bs.counted 1 0 := by
  unfold State.burstStep BellSequencer.counted satInc
  split <;> simp only [State.onBs_bs, State.soundOn_bs, satAdd_zero]

/-- The counts of a burst: an entry that won zones is replayed, any other discarded. -/
theorem burst_bs (l : List (Deferred × ZoneSet)) (s : State) :
    (l.foldl State.burstStep s).bs = s.bs.counted (l.countP fun p => p.2 ≠ 0) (l.countP fun p => p.2 = 0) := by
  induction l generalizing s with
  | nil => exact s.bs.counted_zero.symm
  | cons p l ih =>
    rw [List.foldl_cons, ih, State.burstStep_bs, List.countP_cons, List.countP_cons]
    by_cases h : p.2 = 0#16 <;> simp [h, BellSequencer.counted_counted, Nat.add_comm 1]

/-! ### The burst of a state -/

section
variable (s : State)

/-- The action of the entry at position k. -/
theorem State.getElem?_burst (k : Nat) : s.burst[k]? = s.bs.deferred[k]?.map fun e => (e, s.latestZones k) := by
  simp [State.burst, List.getElem?_zipIdx, Function.comp_def]

theorem State.map_snd_burst : s.burst.map Prod.snd = (List.range s.bs.deferred.length).map s.latestZones := by
  rw [State.burst, List.map_map, List.range_eq_range', ← List.zipIdx_map_snd 0 s.bs.deferred, List.map_map]
  rfl

/-- The entries of the burst whose won set passes a test, counted by position. -/
theorem State.countP_burst (q : ZoneSet → Bool) :
    s.burst.countP (fun p => q p.2) = ((List.range s.bs.deferred.length).filter fun k => q (s.latestZones k)).length := by
  rw [← List.countP_eq_length_filter]
  have h := congrArg (List.countP q) s.map_snd_burst
  rwa [List.countP_map, List.countP_map] at h

/-- No two entries win the same zone. -/
theorem State.burst_apart : s.burst.Pairwise Apart := by
  rw [List.pairwise_iff_getElem]
  intro j k hj hk hjk z hz
  have snd : ∀ i (hi : i < s.burst.length), (s.burst[i]).2 = s.latestZones i := by
    intro i hi
    simp [State.burst]
  rw [snd] at hz ⊢
  exact Bool.eq_false_iff.mpr fun h => absurd (s.latestZones_unique hz h) hjk.ne

end

/-! ## The beginning of replay (R60, R61) -/

/-- A marker position removed is counted. -/
theorem BellSequencer.clearMarker_eq (bs : BellSequencer) :
    bs.clearMarker = { bs with
      marker := false, deferredOverruns := if bs.marker then satInc bs.deferredOverruns else bs.deferredOverruns } := by
  cases bs
  unfold BellSequencer.clearMarker
  dsimp only
  split <;> simp_all

/-- Replay is RUNNING with its timer not yet started (R61, R63). -/
def BellSequencer.runReplay (bs : BellSequencer) : BellSequencer := { bs with replay := .running, spacing := 0 }

section
variable (s : State)

theorem State.replayBegin_none (hp : s.bs.replayPolicy = .none) (hd : s.bs.deferred ≠ []) :
    s.replayBegin = (s.onBs BellSequencer.stopReplay).onBs BellSequencer.discardAll := by
  simp [State.replayBegin, BellSequencer.stopReplay, hd, hp]

theorem State.replayBegin_latest (hp : s.bs.replayPolicy = .latest) (hd : s.bs.deferred ≠ []) :
    s.replayBegin = (s.onBs BellSequencer.stopReplay).replayLatest := by
  simp [State.replayBegin, BellSequencer.stopReplay, hd, hp]

theorem State.replayBegin_all (hp : s.bs.replayPolicy = .all) (hd : s.bs.deferred ≠ []) :
    s.replayBegin = (s.onBs BellSequencer.runReplay).replayNext := by
  simp [State.replayBegin, BellSequencer.stopReplay, BellSequencer.runReplay, hd, hp, State.onBs]

end

/-! ### Heads under ALL (R63) -/

/-- The queue and the marker after the head is removed. -/
def BellSequencer.headRemoved (bs : BellSequencer) (rest : List Deferred) : BellSequencer :=
  { bs with
    deferred := rest, marker := bs.marker && !rest.isEmpty,
    deferredOverruns := if bs.marker && rest.isEmpty then satInc bs.deferredOverruns else bs.deferredOverruns }

theorem BellSequencer.headRemoved_eq (bs : BellSequencer) (rest : List Deferred) :
    { (if rest.isEmpty then bs.clearMarker else bs) with deferred := rest } = bs.headRemoved rest := by
  unfold BellSequencer.headRemoved
  cases rest <;> simp [BellSequencer.clearMarker_eq]

/-- The state after the head is discarded. -/
def State.headDiscarded (s : State) (rest : List Deferred) : State :=
  s.onBs fun bs => { bs.headRemoved rest with replayDiscarded := satInc bs.replayDiscarded }

section
variable (s : State) (e : Deferred) (rest : List Deferred)

/-- A head beyond the age limit is discarded, and the next one taken. -/
theorem State.replayTake_old (h : s.bs.replayAge * 1000 < entryAge s.tb.now? e) :
    s.replayTake (e :: rest) = (s.headDiscarded rest).replayTake rest := by
  simp only [State.replayTake, BellSequencer.headRemoved_eq, State.onBs_tb, State.onBs_bs]
  rw [if_pos (by exact h)]
  rfl

/-- A head within the age limit is replayed on its enabled zones, and the spacing timer starts. -/
theorem State.replayTake_young (h : entryAge s.tb.now? e ≤ s.bs.replayAge * 1000) :
    s.replayTake (e :: rest) =
      ((s.onBs fun bs => bs.headRemoved rest).soundOn e.sound (e.zones &&& s.enabledZones) e.origin).onBs fun bs =>
        { bs with replayed := satInc bs.replayed, spacing := bs.replaySpacing * 1000 } := by
  simp only [State.replayTake, BellSequencer.headRemoved_eq, State.onBs_tb, State.onBs_bs]
  rw [if_neg (by exact Nat.not_lt.mpr h)]
  rfl

end

/-! ## Each policy, as the statement speaks of it -/

section
variable (s : State)

/-- Under NONE every position is removed without sounding (R61). -/
theorem State.replayBegin_none_eq (hp : s.bs.replayPolicy = .none) (hd : s.bs.deferred ≠ []) :
    s.replayBegin = { s with bs := { s.bs with
      deferred := [], marker := false, replay := .idle, spacing := 0,
      deferredOverruns := if s.bs.marker then satInc s.bs.deferredOverruns else s.bs.deferredOverruns,
      replayDiscarded := satAdd s.bs.replayDiscarded s.bs.deferred.length } } := by
  rw [s.replayBegin_none hp hd]
  simp only [State.onBs, BellSequencer.discardAll, BellSequencer.clearMarker_eq, BellSequencer.stopReplay]

/-- Under LATEST the zones that ring an entry are as R62 has it. -/
theorem State.mem_latestZones_iff (z : Zone) (k : Nat) (e : Deferred) (base : BitVec 16)
    (hhalf : ∀ f ∈ s.bs.deferred, f.InHalf base) (he : s.bs.deferred[k]? = some e) :
    memSet z (s.latestZones k) = true ↔
      (s.zone z).enabled = true ∧ memSet z e.zones = true ∧ entryAge s.tb.now? e ≤ s.bs.replayAge * 1000 ∧
        ∀ (j : Nat) (f : Deferred), s.bs.deferred[j]? = some f → memSet z f.zones = true → OutranksByDue k e j f := by
  have hrank : ∀ j f, s.bs.deferred[j]? = some f → (Outranks base k e j f ↔ OutranksByDue k e j f) := fun j f hf =>
    outranks_iff_byDue base k j e f (hhalf e (List.mem_of_getElem? he)) (hhalf f (List.mem_of_getElem? hf))
  rw [s.mem_latestZones_iff_latestAt z k e base hhalf he]
  constructor
  · rintro ⟨hen, hlatest, hage⟩
    exact ⟨hen, hlatest.holds, hage, fun j f hf hz => (hrank j f hf).mp (hlatest.outranks j f hf hz)⟩
  · rintro ⟨hen, hz, hage, hall⟩
    exact ⟨hen, ⟨he, hz, fun j f hf hfz => (hrank j f hf).mpr (hall j f hf hfz)⟩, hage⟩

/-- Under LATEST replay begins with the burst, over a state whose queue is emptied and whose replay stands IDLE. -/
theorem State.replayBegin_latest_burst (hp : s.bs.replayPolicy = .latest) (hd : s.bs.deferred ≠ []) :
    s.replayBegin =
      s.burst.foldl State.burstStep (s.onBs fun bs => { bs.stopReplay.clearMarker with deferred := [] }) := by
  rw [s.replayBegin_latest hp hd, State.replayLatest_eq]
  rfl

theorem State.replayBegin_latest_bs (hp : s.bs.replayPolicy = .latest) (hd : s.bs.deferred ≠ []) :
    s.replayBegin.bs = { s.bs with
      deferred := [], marker := false, replay := .idle, spacing := 0,
      deferredOverruns := if s.bs.marker then satInc s.bs.deferredOverruns else s.bs.deferredOverruns,
      replayed := satAdd s.bs.replayed
        ((List.range s.bs.deferred.length).filter fun k => s.latestZones k ≠ 0).length,
      replayDiscarded := satAdd s.bs.replayDiscarded
        ((List.range s.bs.deferred.length).filter fun k => s.latestZones k = 0).length } := by
  rw [s.replayBegin_latest_burst hp hd, burst_bs, s.countP_burst fun zs => zs ≠ 0, s.countP_burst fun zs => zs = 0]
  simp only [State.onBs_bs, BellSequencer.counted, BellSequencer.clearMarker_eq, BellSequencer.stopReplay]

/-- Under LATEST an entry sounds on the zones it won, and a zone that no entry won is kept (R62). -/
theorem State.replayBegin_latest_zone (hp : s.bs.replayPolicy = .latest) (hd : s.bs.deferred ≠ []) (z : Zone) :
    (∀ (k : Nat) (e : Deferred), s.bs.deferred[k]? = some e → memSet z (s.latestZones k) = true →
      s.SoundsAt s.replayBegin e.sound e.origin z) ∧
    ((∀ k < s.bs.deferred.length, memSet z (s.latestZones k) = false) → s.KeepsZone s.replayBegin z) := by
  rw [s.replayBegin_latest_burst hp hd]
  refine ⟨fun k e he hz => ?won, fun hlost => ?lost⟩
  case won =>
    have hmem : (e, s.latestZones k) ∈ s.burst := List.mem_of_getElem? (by rw [s.getElem?_burst, he]; rfl)
    exact (burst_soundsAt z (e, s.latestZones k) hz s.burst _ s.burst_apart hmem).of_keeps
      (State.SoundFrame.onBs ..) ⟨rfl, rfl⟩
  case lost =>
    refine burst_keepsZone z s.burst _ fun p hp => ?_
    obtain ⟨k, hk, hset⟩ : ∃ k < s.bs.deferred.length, s.latestZones k = p.2 := by
      have h : p.2 ∈ s.burst.map Prod.snd := List.mem_map_of_mem hp
      simpa [s.map_snd_burst] using h
    rw [← hset]
    exact hlost k hk

/-- Under ALL replay runs, and the first head is taken. -/
theorem State.replayBegin_all_take (e : Deferred) (rest : List Deferred) (hp : s.bs.replayPolicy = .all)
    (hd : s.bs.deferred = e :: rest) :
    s.replayBegin = (s.onBs BellSequencer.runReplay).replayTake (e :: rest) := by
  rw [s.replayBegin_all hp (by simp [hd]), State.replayNext]
  simp only [State.onBs_bs, BellSequencer.runReplay, hd]

/-- Under ALL a head beyond the age limit is discarded, and replay begins on what is left (R63). -/
theorem State.replayBegin_all_old (e : Deferred) (rest : List Deferred) (hp : s.bs.replayPolicy = .all)
    (hd : s.bs.deferred = e :: rest) (hage : s.bs.replayAge * 1000 < entryAge s.tb.now? e) :
    s.replayBegin = (s.headDiscarded rest).replayBegin := by
  have hcomm : (s.onBs BellSequencer.runReplay).headDiscarded rest =
      (s.headDiscarded rest).onBs BellSequencer.runReplay := rfl
  rw [s.replayBegin_all_take e rest hp hd, State.replayTake_old (s.onBs BellSequencer.runReplay) e rest hage, hcomm]
  cases rest with
  | nil => exact ((s.headDiscarded []).replayBegin_nothing rfl).symm
  | cons f rest => exact ((s.headDiscarded (f :: rest)).replayBegin_all_take f rest hp rfl).symm

/-- Under ALL a head within the age limit is replayed (R63). -/
theorem State.replayBegin_all_young (e : Deferred) (rest : List Deferred) (hp : s.bs.replayPolicy = .all)
    (hd : s.bs.deferred = e :: rest) (hage : entryAge s.tb.now? e ≤ s.bs.replayAge * 1000) :
    s.SoundFrame s.replayBegin ∧
    s.replayBegin.bs = { s.bs.headRemoved rest with
      replay := .running, replayed := satInc s.bs.replayed, spacing := s.bs.replaySpacing * 1000 } ∧
    s.SoundsOn s.replayBegin e.sound e.zones e.origin := by
  rw [s.replayBegin_all_take e rest hp hd, State.replayTake_young (s.onBs BellSequencer.runReplay) e rest hage]
  refine ⟨?_, ?_, ?_⟩
  · exact (State.SoundFrame.onBs ..).trans ((State.SoundFrame.onBs ..).trans
      ((State.soundOn_frame ..).trans (State.SoundFrame.onBs ..)))
  · simp only [State.onBs_bs, State.soundOn_bs]
    rfl
  · exact State.soundOn_soundsOn _ e.sound e.zones e.origin

end

/-- Settles O22, policy by policy: LATEST by the choice of the latest entry and the walk of the burst, in which no
zone is won twice; ALL by its first head. -/
theorem replayBeginsByPolicy : Obligations.ReplayBeginsByPolicy := by
  refine ⟨fun now e => ?age, fun s hd => s.replayBegin_nothing hd, fun s hp hd => s.replayBegin_none_eq hp hd,
    fun s z k e base hhalf he => s.mem_latestZones_iff z k e base hhalf he, ?latest, ?all⟩
  case age =>
    refine ⟨entryAge_absent now e, ?_⟩
    rintro n d rfl hdue
    exact entryAge_due n d e hdue
  case latest =>
    rintro s _ hp hd rfl
    have frame : s.SoundFrame s.replayBegin := by
      rw [s.replayBegin_latest_burst hp hd]
      exact (State.SoundFrame.onBs ..).trans (burst_frame ..)
    refine ⟨frame.blocks, frame.patterns, s.replayBegin_latest_bs hp hd, fun z => ?_⟩
    obtain ⟨hwon, hlost⟩ := s.replayBegin_latest_zone hp hd z
    exact ⟨fun k e he hz => ⟨(hwon k e he hz).pattern, (hwon k e he hz).chime⟩, hlost⟩
  case all =>
    rintro s _ e rest _ hp hd rfl rfl
    refine ⟨s.replayBegin_all_old e rest hp hd, fun hage => ?_⟩
    obtain ⟨frame, hbs, hsounds⟩ := s.replayBegin_all_young e rest hp hd hage
    exact ⟨frame.blocks, hbs, hsounds⟩

end Sys2Proof.Machine

/-! The decision of an impulse circuit over its hold span (R110, R113). -/

namespace Sys2Proof.Machine

/-! ## The decision from the distance (R113) -/

section
variable {positions dial t d : Nat}

/-- The distance of R113 is the one number below P that takes the dial to its target. -/
theorem dialDistance_eq (hd : d < positions) (hreach : (dial % positions + d) % positions = t) :
    (t + positions - dial % positions) % positions = d := by
  have hdial : dial % positions < positions := Nat.mod_lt _ (Nat.zero_lt_of_lt hd)
  calc (t + positions - dial % positions) % positions
      = ((dial % positions + d) % positions + (positions - dial % positions)) % positions := by
        rw [hreach, Nat.add_sub_assoc hdial.le]
    _ = (dial % positions + d + (positions - dial % positions)) % positions := Nat.mod_add_mod ..
    _ = (d + positions) % positions := by
        congr 1
        omega
    _ = d := by rw [Nat.add_mod_right, Nat.mod_eq_of_lt hd]

theorem decisionOf_some_eq (span : Nat) (hd : d < positions) (hreach : (dial % positions + d) % positions = t) :
    decisionOf positions span dial (some t) =
      if d = 0 then .inStep else if positions - d ≤ span then .hold else .advance := by
  simp only [decisionOf, dialDistance_eq hd hreach]

end

/-! ## A circuit that decides (R110, R114) -/

theorem State.target_of_unset (s : State) (k : CircuitId) (h : s.tb.state = .unset) : s.target k = none :=
  if_pos (.inr h)

theorem CircuitConfig.holdSpan_of_minute (c : CircuitConfig) (h : c.mode = .minute) : c.holdSpan = c.hold := by
  simp only [CircuitConfig.holdSpan, h]

theorem CircuitConfig.holdSpan_of_half (c : CircuitConfig) (h : c.mode = .half) : c.holdSpan = 2 * c.hold := by
  simp only [CircuitConfig.holdSpan, h]

/-- The impulse that ADVANCE may start leaves the state that was decided. -/
theorem Circuit.decide_state (c : Circuit) (positions : Nat) (target : Option Nat)
    (hp : c.config.mode.positions = some positions) (hi : c.inFlight = none) :
    (c.decide target).state = decisionOf positions c.config.holdSpan c.retained.dial target := by
  rw [c.decide_quiet positions target hp hi]
  dsimp only
  split <;> rfl

/-- Settles O32: the table by the one distance that reaches the target, the state by the two impulse modes. -/
theorem impulseDecisionTable : Obligations.ImpulseDecisionTable := by
  refine ⟨fun positions span dial t d _ _ hd hreach => ?table, fun s k => s.target_of_unset k, ?decides⟩
  case table =>
    rw [decisionOf_some_eq span hd hreach]
    exact ⟨rfl, fun hzero => if_pos hzero, fun hne hheld => by rw [if_neg hne, if_pos hheld],
      fun hne hbeyond => by rw [if_neg hne, if_neg (Nat.not_le.mpr hbeyond)]⟩
  case decides =>
    rintro c _ _ target (⟨hmode, rfl, rfl⟩ | ⟨hmode, rfl, rfl⟩) hi
    · rw [c.decide_state 720 target (by rw [hmode]; rfl) hi, c.config.holdSpan_of_minute hmode]
    · rw [c.decide_state 1440 target (by rw [hmode]; rfl) hi, c.config.holdSpan_of_half hmode]

end Sys2Proof.Machine

/-! A muster at the drill controller, from the line and from an input (R140, R144, R153, R154). -/

namespace Sys2Proof.Machine

/-! ## A DRILL cell and a debounced change (R140, R153) -/

section
variable (s : State)

/-- A DRILL cell taken here is its command at the drill controller, with the cell counted and sent on. -/
theorem State.receive_takeDrill (code : BitVec 4) (c : DrillCell) (command : DrillCommand) (h : s.takes c.groups)
    (hcode : drillCommandOf code = some command) :
    s.receive (drillCell code c) (State.takeDrill code c) =
      ((s.onLi LineInterface.countGood).drillCommand command .line c.number
        (if c.zonesGiven then some c.zones else none)).sendOut (drillCell code c) := by
  obtain ⟨hup, hgroup⟩ := h
  have inGroups : (s.onLi LineInterface.countGood).inGroups c.groups = true := hgroup
  rw [s.receive_up _ _ hup, State.takeDrill, inGroups, hcode, if_neg nofun]

/-- A debounced change sets the level and the change bit and posts INPUT_CHANGE; then the input acts. -/
theorem exec_debouncedChange (u : State) (n : InputId) (c : Contact) (hc : s.input n = c)
    (hu : u = s.withInput n { c with level := c.pin, timer := 0, changed := true }) (due : 20 ≤ c.timer) :
    exec (.debouncedChange n) s = .next (State.inputAction n
      { u with
        mu := s.mu.post 15 [BitVec.ofNat 8 n.val, if c.pin then 1 else 0, c.function.code, u.ci.changeBits] }) := by
  subst hc hu
  have changeDue : (s.input n).changeDue = true := decide_eq_true due
  change Host.Outcome.next (if (s.input n).changeDue then s.inputChange n else s) = _
  rw [if_pos changeDue, State.inputChange, State.input_setInput, if_pos rfl]
  rfl

end

/-! ## A muster (R144) -/

/-- The drill controller with a MUSTER taken: in SOUNDING and SILENCED the OPEN record is marked, and else the command
is ignored or counted (R140, R144). -/
def DrillController.withMuster (now : Tick) (dc : DrillController) : DrillController :=
  match dc.state with
  | .sounding | .silenced =>
    dc.editOpen fun r => { r with musters := satInc r.musters, muster := some (r.muster.getD (dc.elapsed now)) }
  | .idle | .clearing => { dc with ignored := satInc dc.ignored }
  | .panel => { dc with inPanel := satInc dc.inPanel }

section
variable (dc : DrillController) (now : Tick)

/-- The newest record is marked when it is the OPEN one; the first mark alone sets the first-muster elapsed. -/
theorem DrillController.withMuster_open (r : DrillRecord) (rs : List DrillRecord)
    (hstate : dc.state = .sounding ∨ dc.state = .silenced) (ho : dc.openRecord = some 0) (hr : dc.ring = r :: rs) :
    dc.withMuster now =
      { dc with ring := { r with musters := satInc r.musters,
                                 muster := if r.muster = none then some (dc.elapsedAt now) else r.muster } :: rs } := by
  have elapsed : dc.elapsed now = dc.elapsedAt now := rfl
  have first : some (r.muster.getD (dc.elapsedAt now)) =
      if r.muster = none then some (dc.elapsedAt now) else r.muster := by cases r.muster <;> rfl
  obtain h | h := hstate <;>
    simp only [DrillController.withMuster, h, dc.editOpen_newest _ r rs ho hr, elapsed, first]

theorem DrillController.withMuster_ignored (h : dc.state = .idle ∨ dc.state = .clearing) :
    dc.withMuster now = { dc with ignored := satInc dc.ignored } := by
  obtain h | h := h <;> simp only [DrillController.withMuster, h]

theorem DrillController.withMuster_panel (h : dc.state = .panel) :
    dc.withMuster now = { dc with inPanel := satInc dc.inPanel } := by
  simp only [DrillController.withMuster, h]

end

section
variable (s : State)

/-- A MUSTER changes the drill controller alone, from either source. -/
theorem State.drillCommand_muster (source : DrillOrigin) (number : BitVec 16) (zones : Option ZoneSet) :
    s.drillCommand .muster source number zones = s.onDc (DrillController.withMuster s.tb.tick) := by
  cases h : s.dc.state <;>
    simp only [State.drillCommand, State.drillMustered, State.drillIgnored, State.onDc, DrillController.withMuster, h]

/-- A MUSTER cell taken here. -/
theorem exec_drillMuster (c : DrillCell) (h : s.takes c.groups) :
    exec (.drillMuster c) s =
      .next (State.forwards (drillCell 3 c) { s with dc := s.dc.withMuster s.tb.tick }) := by
  change Host.Outcome.next (s.receive (drillCell 3 c) (State.takeDrill 3 c)) = _
  rw [s.receive_takeDrill 3 c .muster h rfl, State.drillCommand_muster]
  rfl

/-- An input with the function MUSTER that stands active gives a MUSTER. -/
theorem State.inputAction_muster (n : InputId) (hf : (s.input n).function = .muster)
    (active : (s.input n).standsActive = true) :
    s.inputAction n = s.onDc (DrillController.withMuster s.tb.tick) := by
  simp only [State.inputAction, hf, active, if_true, State.drillCommand_muster]

/-- A MUSTER input that comes to stand active. -/
theorem exec_debouncedChange_muster (u : State) (n : InputId) (c : Contact) (hc : s.input n = c)
    (hu : u = s.withInput n { c with level := c.pin, timer := 0, changed := true }) (due : 20 ≤ c.timer)
    (hf : c.function = .muster) (active : c.pin = c.activeHigh) :
    exec (.debouncedChange n) s = .next
      { u with
        mu := s.mu.post 15 [BitVec.ofNat 8 n.val, if c.pin then 1 else 0, 3, u.ci.changeBits],
        dc := s.dc.withMuster s.tb.tick } := by
  have changed : u.input n = { c with level := c.pin, timer := 0, changed := true } := by
    rw [hu]
    exact Vector.getElem_set_self ..
  have posted (mu : ManagementUnit) : State.input { u with mu } n = u.input n := rfl
  rw [exec_debouncedChange s u n c hc hu due, State.inputAction_muster _ n (by rw [posted, changed]; exact hf)
    (by rw [posted, changed]; exact beq_iff_eq.mpr active), hf, hu]
  rfl

end

/-- Settles O38: from the line and from an input the one change of the drill controller, read off state by state. -/
theorem musterMarksOpenRecord : Obligations.MusterMarksOpenRecord := by
  refine ⟨fun s c takes => ⟨fun r rs hstate ho hr => ?marks, fun h => ?ignored, fun h => ?counted⟩,
    fun s u n c r rs hc hu due hf active hstate ho hr => ?input⟩
  case marks => rw [exec_drillMuster s c takes, s.dc.withMuster_open _ r rs hstate ho hr]
  case ignored => rw [exec_drillMuster s c takes, s.dc.withMuster_ignored _ h]
  case counted => rw [exec_drillMuster s c takes, s.dc.withMuster_panel _ h]
  case input =>
    rw [exec_debouncedChange_muster s u n c hc hu due hf active, s.dc.withMuster_open _ r rs hstate ho hr]

end Sys2Proof.Machine
